-- ==== Sys2Proof/Word.lean ====
section
/-! DEFINITION. The word types of the core (00_scope.md R5, R7): every value is an unsigned bit string. -/

namespace Sys2Proof

/-- A byte: general registers, timers, memory (10_state.md R20, R26 to R28). -/
abbrev Byte := BitVec 8

/-- A 16-bit word: instruction words, I, PC, stack entries (10_state.md R22, R23, R25). -/
abbrev Word := BitVec 16

/-- A hexadecimal digit of an instruction word; the fields X, Y and N (30_encoding.md R72). -/
abbrev Nibble := BitVec 4

/-- The field NNN, an immediate address (30_encoding.md R72). -/
abbrev Addr12 := BitVec 12

/-- The framebuffer: pixel `(x, y)` is bit `x + 64 * y` (10_state.md R29). -/
abbrev Framebuffer := BitVec 2048

end Sys2Proof
end

