-- ==== Sys2Proof/Machine/Flags.lean ====
section
/-! DEFINITION. The flag computations, one per flag-writing instruction (10_state.md R21; 43_alu.md R126 to R129; 40_display.md R91). A flag
is 0 or 1 and is computed from the operand values read at the start (43_alu.md R132). -/

namespace Sys2Proof.Machine

/-- A condition as a flag value. -/
def flagOf (c : Bool) : Byte := if c then 1 else 0

/-- 8XY4: 1 if the unmasked sum exceeds 0xFF (43_alu.md R126). -/
def carryFlag (a b : Byte) : Byte := flagOf (decide (a.toNat + b.toNat > 0xFF))

/-- 8XY5: 1 if `a > b`, strict (43_alu.md R127). -/
def greaterFlag (a b : Byte) : Byte := flagOf (decide (a.toNat > b.toNat))

/-- 8XY6: bit 0 before the shift (43_alu.md R128). -/
def lowBitFlag (a : Byte) : Byte := a &&& 1

/-- 8XYE: bit 7 before the shift (43_alu.md R129). -/
def highBitFlag (a : Byte) : Byte := (a >>> 7) &&& 1

/-- DXYN: 1 if any pixel the draw toggled was on before (40_display.md R91). -/
def collisionFlag (hit : Bool) : Byte := flagOf hit

end Sys2Proof.Machine
end

