-- ==== Sys2Proof/Config.lean ====
section
/-! DEFINITION. What an instance of the core fixes (00_scope.md R5), the events of the outside world (60_exceptions.md R170), and the
free values: opaque constants, so that a claim about them holds whatever they are. -/

namespace Sys2Proof

/-- The atomic events on the state of the core (60_exceptions.md R170). A key index is a natural number, since the input source
may supply one outside 0 to 15 (R163). -/
inductive Event where
  /-- construction of an instance (70_reset_and_hazards.md R190) -/
  | reset
  /-- the host loads a program (70_reset_and_hazards.md R191) -/
  | load (bytes : List Byte)
  /-- the host starts both loops (70_reset_and_hazards.md R193) -/
  | start
  /-- the host stops both loops; `destroy` is an alias of it (70_reset_and_hazards.md R194) -/
  | stop
  /-- one CPU cycle (30_encoding.md R70) -/
  | cycle
  /-- one tick of the timer loop (60_exceptions.md R175) -/
  | tick
  /-- the input source reports key `k` down (60_exceptions.md R178) -/
  | keyDown (k : Nat)
  /-- the input source reports key `k` up (60_exceptions.md R179) -/
  | keyUp (k : Nat)
  deriving DecidableEq, Repr, Inhabited

namespace Config

/-- MEM_SIZE (00_scope.md R5). -/
def memSize : Nat := 4096

/-- The highest address of MEM, 0xFFF (00_scope.md R5). -/
def memTop : Nat := 0xFFF

/-- PC_RESET (00_scope.md R5). -/
def pcReset : Word := 0x200#16

/-- PROG_BASE, the address of the first byte of a loaded program (00_scope.md R5). -/
def progBase : Nat := 0x200

/-- FONT_BASE (00_scope.md R5). -/
def fontBase : Nat := 0x000

/-- FONT_BYTES (00_scope.md R5). -/
def fontBytes : Nat := 80

/-- MAX_ROM, 0x1000 - 0x200 (00_scope.md R5). -/
def maxRom : Nat := 3584

/-- FB_W, the stride of the framebuffer (00_scope.md R5). -/
def fbWidth : Nat := 64

/-- The number of pixels, FB_W times FB_H (00_scope.md R5). -/
def fbSize : Nat := 2048

/-- STACK_DEPTH (00_scope.md R5). -/
def stackDepth : Nat := 16

/-- NKEYS (00_scope.md R5). -/
def numKeys : Nat := 16

/-- FREE VALUE (assumption 5): the parameter FONT, byte `n` of the font table for `n` from 0 to 79. The document gives no
value (00_scope.md R5, decision D10), so nothing may rest on one. -/
opaque font : Nat → Byte

/-- FREE VALUE (assumption 6): the `n`-th random byte drawn by CXNN, under no law (43_alu.md R133, decision D15). -/
opaque rnd : Nat → Byte

/-- FREE VALUE (assumption 7): the `n`-th event of the schedule where the state's agenda names none (60_exceptions.md R176,
decision D21). -/
opaque freeEvent : Nat → Event

/-- OPEN parameter TICKRATE, the pause after a batch in milliseconds; no rule reads it (00_scope.md R5; 70_reset_and_hazards.md
R206; assumption 10). -/
opaque tickRate : Nat

/-- OPEN parameter F_REF, the frequency the tick is divided from; no rule reads it (00_scope.md R5; 70_reset_and_hazards.md
R206; assumption 10). -/
opaque fRef : Nat

/-- The customary font (93_implementation_defined.md U14, G1). PRESUMED by the spec itself, from general knowledge; no meaning reads this
table. A claim about glyph pixels takes `FontIsDefault` as a premise and proves less by it. -/
def defaultFont : List Byte :=
  [0xF0#8, 0x90#8, 0x90#8, 0x90#8, 0xF0#8, 0x20#8, 0x60#8, 0x20#8, 0x20#8, 0x70#8] ++
  [0xF0#8, 0x10#8, 0xF0#8, 0x80#8, 0xF0#8, 0xF0#8, 0x10#8, 0xF0#8, 0x10#8, 0xF0#8] ++
  [0x90#8, 0x90#8, 0xF0#8, 0x10#8, 0x10#8, 0xF0#8, 0x80#8, 0xF0#8, 0x10#8, 0xF0#8] ++
  [0xF0#8, 0x80#8, 0xF0#8, 0x90#8, 0xF0#8, 0xF0#8, 0x10#8, 0x20#8, 0x40#8, 0x40#8] ++
  [0xF0#8, 0x90#8, 0xF0#8, 0x90#8, 0xF0#8, 0xF0#8, 0x90#8, 0xF0#8, 0x10#8, 0xF0#8] ++
  [0xF0#8, 0x90#8, 0xF0#8, 0x90#8, 0x90#8, 0xE0#8, 0x90#8, 0xE0#8, 0x90#8, 0xE0#8] ++
  [0xF0#8, 0x80#8, 0x80#8, 0x80#8, 0xF0#8, 0xE0#8, 0x90#8, 0x90#8, 0x90#8, 0xE0#8] ++
  [0xF0#8, 0x80#8, 0xF0#8, 0x80#8, 0xF0#8, 0xF0#8, 0x80#8, 0xF0#8, 0x80#8, 0x80#8]

/-- The instance's FONT is the customary one (93_implementation_defined.md U14). -/
def FontIsDefault : Prop := (List.range fontBytes).map font = defaultFont

end Config

end Sys2Proof
end

