-- ==== Sys2Proof/Syntax.lean ====
section
/-! DEFINITION. The 33 instructions of the opcode map (30_encoding.md R76), one constructor per row, with the fields each pattern
names. A register number is a nibble, so every value is legal (R74). -/

namespace Sys2Proof

/-- The instructions, in the order of 30_encoding.md R76. SHR and SHL keep their `Y` field, which is decoded but unused (R80). -/
inductive Instr where
  /-- 00E0 `CLS` (R90) -/
  | cls
  /-- 00EE `RET` (R100) -/
  | ret
  /-- 1NNN `JP NNN` (R101) -/
  | jp (nnn : Addr12)
  /-- 2NNN `CALL NNN` (R102) -/
  | call (nnn : Addr12)
  /-- 3XNN `SE VX, NN` (R110) -/
  | seImm (x : Nibble) (nn : Byte)
  /-- 4XNN `SNE VX, NN` (R111) -/
  | sneImm (x : Nibble) (nn : Byte)
  /-- 5XY0 `SE VX, VY` (R112) -/
  | seReg (x y : Nibble)
  /-- 6XNN `LD VX, NN` (R120) -/
  | ldImm (x : Nibble) (nn : Byte)
  /-- 7XNN `ADD VX, NN` (R121) -/
  | addImm (x : Nibble) (nn : Byte)
  /-- 8XY0 `LD VX, VY` (R122) -/
  | ldReg (x y : Nibble)
  /-- 8XY1 `OR VX, VY` (R123) -/
  | orReg (x y : Nibble)
  /-- 8XY2 `AND VX, VY` (R124) -/
  | andReg (x y : Nibble)
  /-- 8XY3 `XOR VX, VY` (R125) -/
  | xorReg (x y : Nibble)
  /-- 8XY4 `ADD VX, VY` (R126) -/
  | addReg (x y : Nibble)
  /-- 8XY5 `SUB VX, VY` (R127) -/
  | subReg (x y : Nibble)
  /-- 8XY6 `SHR VX` (R128) -/
  | shr (x y : Nibble)
  /-- 8XYE `SHL VX` (R129) -/
  | shl (x y : Nibble)
  /-- 9XY0 `SNE VX, VY` (R113) -/
  | sneReg (x y : Nibble)
  /-- ANNN `LD I, NNN` (R140) -/
  | ldI (nnn : Addr12)
  /-- BNNN `JP V0, NNN` (R103) -/
  | jpV0 (nnn : Addr12)
  /-- CXNN `RND VX, NN` (R130) -/
  | rnd (x : Nibble) (nn : Byte)
  /-- DXYN `DRW VX, VY, N` (R91) -/
  | drw (x y n : Nibble)
  /-- EX9E `SKP VX` (R150) -/
  | skp (x : Nibble)
  /-- EXA1 `SKNP VX` (R151) -/
  | sknp (x : Nibble)
  /-- FX07 `LD VX, DT` (R152) -/
  | ldVxDt (x : Nibble)
  /-- FX0A `LD VX, K` (R153) -/
  | ldVxK (x : Nibble)
  /-- FX15 `LD DT, VX` (R154) -/
  | ldDtVx (x : Nibble)
  /-- FX18 `LD ST, VX` (R155) -/
  | ldStVx (x : Nibble)
  /-- FX1E `ADD I, VX` (R141) -/
  | addI (x : Nibble)
  /-- FX29 `LD F, VX` (R142) -/
  | ldF (x : Nibble)
  /-- FX33 `LD B, VX` (R143) -/
  | ldB (x : Nibble)
  /-- FX55 `LD [I], VX` (R144) -/
  | storeRegs (x : Nibble)
  /-- FX65 `LD VX, [I]` (R145) -/
  | loadRegs (x : Nibble)
  deriving DecidableEq, Repr

end Sys2Proof
end

