-- ==== Sys2Proof/Decode.lean ====
section
/-! DEFINITION. Decoding (30_encoding.md R72, R75) and, after it, encoding (R84). Decoding is total: a word that is no instruction is
rejected by name. -/

namespace Sys2Proof

/-- Why bytes are no instruction. -/
inductive DecodeError where
  /-- the word matches no row of the opcode map (30_encoding.md R78); safe, the cycle raises UnknownOpcode -/
  | unknownOpcode (w : Word)
  /-- fewer than two bytes are left; safe, no cycle decodes such a list -/
  | truncated
  deriving DecidableEq, Repr

/-- `op`, the top nibble, bits 15:12 (30_encoding.md R72). -/
def fieldOp (w : Word) : Nibble := w.extractLsb' 12 4

/-- `X`, bits 11:8 (30_encoding.md R72). -/
def fieldX (w : Word) : Nibble := w.extractLsb' 8 4

/-- `Y`, bits 7:4 (30_encoding.md R72). -/
def fieldY (w : Word) : Nibble := w.extractLsb' 4 4

/-- `N`, bits 3:0 (30_encoding.md R72). -/
def fieldN (w : Word) : Nibble := w.extractLsb' 0 4

/-- `NN`, bits 7:0 (30_encoding.md R72). -/
def fieldNN (w : Word) : Byte := w.extractLsb' 0 8

/-- `NNN`, bits 11:0 (30_encoding.md R72). -/
def fieldNNN (w : Word) : Addr12 := w.extractLsb' 0 12

/-- Family 0x0: the whole word is tested (30_encoding.md R75, decision D2). -/
def decodeFamily0 (w : Word) : Except DecodeError Instr :=
  if w = 0x00E0#16 then .ok .cls else if w = 0x00EE#16 then .ok .ret else .error (.unknownOpcode w)

/-- Family 0x8: the low nibble is tested (30_encoding.md R75, R76). -/
def decodeFamily8 (w : Word) : Except DecodeError Instr :=
  match (fieldN w).toNat with
  | 0x0 => .ok (.ldReg (fieldX w) (fieldY w))
  | 0x1 => .ok (.orReg (fieldX w) (fieldY w))
  | 0x2 => .ok (.andReg (fieldX w) (fieldY w))
  | 0x3 => .ok (.xorReg (fieldX w) (fieldY w))
  | 0x4 => .ok (.addReg (fieldX w) (fieldY w))
  | 0x5 => .ok (.subReg (fieldX w) (fieldY w))
  | 0x6 => .ok (.shr (fieldX w) (fieldY w))
  | 0xE => .ok (.shl (fieldX w) (fieldY w))
  | _ => .error (.unknownOpcode w)

/-- Family 0xE: the low byte is tested (30_encoding.md R75). -/
def decodeFamilyE (w : Word) : Except DecodeError Instr :=
  if fieldNN w = 0x9E#8 then .ok (.skp (fieldX w))
  else if fieldNN w = 0xA1#8 then .ok (.sknp (fieldX w))
  else .error (.unknownOpcode w)

/-- Family 0xF: the low byte is tested (30_encoding.md R75, R76). -/
def decodeFamilyF (w : Word) : Except DecodeError Instr :=
  if fieldNN w = 0x07#8 then .ok (.ldVxDt (fieldX w))
  else if fieldNN w = 0x0A#8 then .ok (.ldVxK (fieldX w))
  else if fieldNN w = 0x15#8 then .ok (.ldDtVx (fieldX w))
  else if fieldNN w = 0x18#8 then .ok (.ldStVx (fieldX w))
  else if fieldNN w = 0x1E#8 then .ok (.addI (fieldX w))
  else if fieldNN w = 0x29#8 then .ok (.ldF (fieldX w))
  else if fieldNN w = 0x33#8 then .ok (.ldB (fieldX w))
  else if fieldNN w = 0x55#8 then .ok (.storeRegs (fieldX w))
  else if fieldNN w = 0x65#8 then .ok (.loadRegs (fieldX w))
  else .error (.unknownOpcode w)

/-- The decision tree of 30_encoding.md R75, on the top nibble. -/
def decode (w : Word) : Except DecodeError Instr :=
  match (fieldOp w).toNat with
  | 0x0 => decodeFamily0 w
  | 0x1 => .ok (.jp (fieldNNN w))
  | 0x2 => .ok (.call (fieldNNN w))
  | 0x3 => .ok (.seImm (fieldX w) (fieldNN w))
  | 0x4 => .ok (.sneImm (fieldX w) (fieldNN w))
  | 0x5 => if fieldN w = 0#4 then .ok (.seReg (fieldX w) (fieldY w)) else .error (.unknownOpcode w)
  | 0x6 => .ok (.ldImm (fieldX w) (fieldNN w))
  | 0x7 => .ok (.addImm (fieldX w) (fieldNN w))
  | 0x8 => decodeFamily8 w
  | 0x9 => if fieldN w = 0#4 then .ok (.sneReg (fieldX w) (fieldY w)) else .error (.unknownOpcode w)
  | 0xA => .ok (.ldI (fieldNNN w))
  | 0xB => .ok (.jpV0 (fieldNNN w))
  | 0xC => .ok (.rnd (fieldX w) (fieldNN w))
  | 0xD => .ok (.drw (fieldX w) (fieldY w) (fieldN w))
  | 0xE => decodeFamilyE w
  | 0xF => decodeFamilyF w
  | _ => .error (.unknownOpcode w)

/-- The word of two consecutive bytes, the first one high (20_memory.md R54, R55). -/
def wordOfBytes (hi lo : Byte) : Word := hi ++ lo

/-- Decoding from a list of bytes, with the bytes left over (30_encoding.md R72, R81: always two bytes). -/
def decodeBytes : List Byte → Except DecodeError (Instr × List Byte)
  | hi :: lo :: rest => (decode (wordOfBytes hi lo)).map (·, rest)
  | [_] => .error .truncated
  | [] => .error .truncated

/-- A field of four bits moved to its place (30_encoding.md R84). -/
def placeX (x : Nibble) : Word := x.setWidth 16 <<< 8

/-- The field Y in its place (30_encoding.md R84). -/
def placeY (y : Nibble) : Word := y.setWidth 16 <<< 4

/-- Encoding of the formats XY and XYN: `match | (X << 8) | (Y << 4) | N` (30_encoding.md R84). -/
def encodeXYN (pattern : Word) (x y n : Nibble) : Word := pattern ||| placeX x ||| placeY y ||| n.setWidth 16

/-- Encoding of the formats XB and XS (30_encoding.md R84). -/
def encodeXB (pattern : Word) (x : Nibble) (nn : Byte) : Word := pattern ||| placeX x ||| nn.setWidth 16

/-- Encoding of the format A (30_encoding.md R84). -/
def encodeA (pattern : Word) (nnn : Addr12) : Word := pattern ||| nnn.setWidth 16

/-- The instruction word (30_encoding.md R76, R84). -/
def encode : Instr → Word
  | .cls => 0x00E0
  | .ret => 0x00EE
  | .jp nnn => encodeA 0x1000 nnn
  | .call nnn => encodeA 0x2000 nnn
  | .seImm x nn => encodeXB 0x3000 x nn
  | .sneImm x nn => encodeXB 0x4000 x nn
  | .seReg x y => encodeXYN 0x5000 x y 0
  | .ldImm x nn => encodeXB 0x6000 x nn
  | .addImm x nn => encodeXB 0x7000 x nn
  | .ldReg x y => encodeXYN 0x8000 x y 0x0
  | .orReg x y => encodeXYN 0x8000 x y 0x1
  | .andReg x y => encodeXYN 0x8000 x y 0x2
  | .xorReg x y => encodeXYN 0x8000 x y 0x3
  | .addReg x y => encodeXYN 0x8000 x y 0x4
  | .subReg x y => encodeXYN 0x8000 x y 0x5
  | .shr x y => encodeXYN 0x8000 x y 0x6
  | .shl x y => encodeXYN 0x8000 x y 0xE
  | .sneReg x y => encodeXYN 0x9000 x y 0
  | .ldI nnn => encodeA 0xA000 nnn
  | .jpV0 nnn => encodeA 0xB000 nnn
  | .rnd x nn => encodeXB 0xC000 x nn
  | .drw x y n => encodeXYN 0xD000 x y n
  | .skp x => encodeXB 0xE000 x 0x9E
  | .sknp x => encodeXB 0xE000 x 0xA1
  | .ldVxDt x => encodeXB 0xF000 x 0x07
  | .ldVxK x => encodeXB 0xF000 x 0x0A
  | .ldDtVx x => encodeXB 0xF000 x 0x15
  | .ldStVx x => encodeXB 0xF000 x 0x18
  | .addI x => encodeXB 0xF000 x 0x1E
  | .ldF x => encodeXB 0xF000 x 0x29
  | .ldB x => encodeXB 0xF000 x 0x33
  | .storeRegs x => encodeXB 0xF000 x 0x55
  | .loadRegs x => encodeXB 0xF000 x 0x65

/-- The high byte of a word, `v[15:8]` (30_encoding.md R84). -/
def highByte (w : Word) : Byte := w.extractLsb' 8 8

/-- The low byte of a word, `v[7:0]` (30_encoding.md R84). -/
def lowByte (w : Word) : Byte := w.extractLsb' 0 8

/-- The bytes of a word as they lie in memory, lowest address first (20_memory.md R55; 30_encoding.md R84). -/
def bytesOfWord (w : Word) : List Byte := [highByte w, lowByte w]

/-- The instruction's bytes as they lie in memory (30_encoding.md R84). -/
def encodeBytes (i : Instr) : List Byte := bytesOfWord (encode i)

/-- The word that the opcode table's number `w` of `nbits` bits stands for: one word, so its bits are the number's, and every
bit from `nbits` up is 0. -/
def tableWord (nbits w : Nat) : Word := BitVec.ofNat 16 (w % 2 ^ nbits)

/-- What this decoder reads from an instruction whose bits are `w` as spec/opcode_table.json numbers them. -/
def decodeTableWord (nbits w : Nat) : Option Instr :=
  match decodeBytes (bytesOfWord (tableWord nbits w)) with
  | .ok (i, _) => some i
  | .error _ => none

end Sys2Proof
end

