-- ==== Sys2Proof/Machine/State.lean ====
section
/-! DEFINITION. The state of the core as plain data (10_state.md R20 to R42), its value after reset, and the reasons a step can stop. -/

namespace Sys2Proof.Machine

/-- LIFE (10_state.md R31). -/
inductive Life where
  | idle
  | active
  | stopped
  deriving DecidableEq, Repr

/-- GATE, the Key-Wait Gate (10_state.md R34; 60_exceptions.md R177). -/
inductive Gate where
  | running
  | awaitingKey
  deriving DecidableEq, Repr

/-- The error kinds (60_exceptions.md R160). -/
inductive FaultKind where
  | unknownOpcode
  | outOfBoundsAccess
  | invalidKeyIndex
  deriving DecidableEq, Repr

/-- The store an out-of-bounds index was meant for (60_exceptions.md R162). -/
inductive Space where
  | fetch
  | mem
  | stack
  | fb
  | key
  | load
  deriving DecidableEq, Repr

/-- FAULT's record `(kind, code, opcode, addr, info)` (10_state.md R38; 60_exceptions.md R165). -/
structure FaultRecord where
  kind : FaultKind
  /-- the numeric code of the kind (60_exceptions.md R164) -/
  code : Nat
  /-- the fetched word, absent for a fetch fault -/
  opcode : Option Word
  /-- the address the instruction was, or was to be, fetched from -/
  addr : Word
  /-- the space and index of an out-of-bounds access (60_exceptions.md R162) -/
  info : Option (Space × Nat)
  deriving DecidableEq, Repr

/-- The state: the spec's own pieces (10_state.md R42), the last values of its outputs (assumptions 11, 12), and the model's inputs
of the steps to come (assumptions 6, 7). -/
structure State where
  /-- V[0] to V[15]; V[15] is VF (R20, R21) -/
  v : Vector Byte 16
  /-- I (R22) -/
  i : Word
  /-- PC (R23) -/
  pc : Word
  /-- SP, 0 to 16 (R24) -/
  sp : Fin 17
  /-- STACK[0..15] (R25) -/
  stack : Vector Word 16
  /-- DT (R26) -/
  dt : Byte
  /-- ST (R27) -/
  st : Byte
  /-- MEM, in canonical form: addresses strictly rising, no byte 0 listed (R28) -/
  mem : List Host.Cell
  /-- FB, pixel `p` is bit `p` (R29) -/
  fb : Framebuffer
  /-- KEYS, true is down (R30) -/
  keys : Vector Bool 16
  /-- LIFE (R31) -/
  life : Life
  /-- RUN_CPU (R32) -/
  runCpu : Bool
  /-- RUN_TMR (R33) -/
  runTmr : Bool
  /-- GATE (R34) -/
  gate : Gate
  /-- WAITX (R35) -/
  waitx : Nibble
  /-- BC, 0 to 9 (R36) -/
  bc : Fin 10
  /-- TONE (R37) -/
  tone : Bool
  /-- FAULT (R38) -/
  fault : Option FaultRecord
  /-- output: `dirty` of the latest CPU cycle (R39; assumption 12) -/
  dirty : Bool
  /-- output: the framebuffer the display sink received last (R41; 40_display.md R92; assumption 12) -/
  shown : Option Framebuffer
  /-- output: what the latest `load` was rejected with (60_exceptions.md R162, row `load`; assumption 11) -/
  rejected : Option (Space × Nat)
  /-- the model's own: the events of the next steps, first one first (60_exceptions.md R176; assumption 7) -/
  agenda : List Event
  /-- the model's own: how many events were drawn from `Config.freeEvent` (assumption 7) -/
  eventCount : Nat
  /-- the model's own: how many bytes were drawn from `Config.rnd` (43_alu.md R133; assumption 6) -/
  draws : Nat
  deriving DecidableEq, Repr

/-- Why a step stops with a fault: never. Every fault the spec gives the core halts its CPU loop and leaves the machine going on,
timers and key events included (60_exceptions.md R165), so it is a next state with FAULT written (assumption 13). -/
inductive Fault where
  deriving DecidableEq, Repr

/-- Why a step is refused. -/
inductive Refusal where
  /-- raised by an arm of `exec` whose instruction has no meaning yet; safe (no arm does) -/
  | notModelled (mnemonic : String)
  /-- raised by the event `load` outside Idle, which the spec does not define and has a model refuse (70_reset_and_hazards.md R195, decision
  D17; assumption 25); safe -/
  | loadOutsideIdle
  /-- raised by the event `start` outside Idle, as for `loadOutsideIdle`; safe -/
  | startOutsideIdle
  /-- raised by the event `stop` in Stopped, as for `loadOutsideIdle`; safe -/
  | stopAfterStop
  deriving DecidableEq, Repr

/-- The state after reset (10_state.md R42; 70_reset_and_hazards.md R190). The spec leaves STACK, WAITX and MEM[0x000..0x04F] unspecified: the
zeros here are the model's (assumptions 2, 3, 4). -/
def State.reset : State where
  v := Vector.replicate 16 0
  i := 0
  pc := Config.pcReset
  sp := 0
  stack := Vector.replicate 16 0
  dt := 0
  st := 0
  mem := []
  fb := 0
  keys := Vector.replicate 16 false
  life := .idle
  runCpu := false
  runTmr := false
  gate := .running
  waitx := 0
  bc := 0
  tone := false
  fault := none
  dirty := false
  shown := none
  rejected := none
  agenda := []
  eventCount := 0
  draws := 0

end Sys2Proof.Machine
end

