-- ==== Sys2Proof/Machine/Ops.lean ====
section
/-! DEFINITION. The named operations over registers, memory, framebuffer, keypad and stack, and taking a fault (60_exceptions.md R165), the
one exception entry of the core. There is no return from it (R168). -/

namespace Sys2Proof.Machine

/-! ### Registers -/

/-- VF, the flag register (10_state.md R21). -/
def vf : Nibble := 0xF

/-- Read of `V[x]` (10_state.md R20). -/
def State.reg (s : State) (x : Nibble) : Byte := s.v[x.toNat]'(x.isLt)

/-- `V[x] <- b` (10_state.md R20). No register is hardwired. -/
def State.setReg (s : State) (x : Nibble) (b : Byte) : State := { s with v := s.v.set x.toNat b x.isLt }

/-- A result into `V[x]` and then a flag into VF: with `x = 0xF` the flag stays (00_scope.md R9; 43_alu.md R132). -/
def State.setRegFlag (s : State) (x : Nibble) (result flag : Byte) : State := (s.setReg x result).setReg vf flag

/-- `I <- w` (10_state.md R22). -/
def State.setI (s : State) (w : Word) : State := { s with i := w }

/-- `PC <- w` (10_state.md R23). -/
def State.setPc (s : State) (w : Word) : State := { s with pc := w }

/-- Past one instruction: `PC <- PC + 2` (30_encoding.md R71; 42_skip.md). -/
def State.advance (s : State) : State := s.setPc (s.pc + 2)

/-! ### Memory Image -/

/-- The byte at an address of a cell list; an unlisted address reads as 0 (20_memory.md R52; assumptions 1, 4). -/
def Memory.read : List Host.Cell → Nat → Byte
  | [], _ => 0
  | c :: m, a => if c.1 = a then c.2 else Memory.read m a

/-- A cell put in its place by address. -/
def Memory.insert (a : Nat) (b : Byte) : List Host.Cell → List Host.Cell
  | [] => [(a, b)]
  | c :: m => if a < c.1 then (a, b) :: c :: m else c :: Memory.insert a b m

/-- `MEM[a] <- b` on a cell list: a byte 0 is not listed, so equal memories are equal lists. -/
def Memory.write (m : List Host.Cell) (a : Nat) (b : Byte) : List Host.Cell :=
  if b = 0 then m.filter (·.1 ≠ a) else Memory.insert a b (m.filter (·.1 ≠ a))

/-- Bytes at consecutive addresses from `a` up. -/
def Memory.writeList (m : List Host.Cell) (a : Nat) : List Byte → List Host.Cell
  | [] => m
  | b :: bs => Memory.writeList (Memory.write m a b) (a + 1) bs

/-- The canonical form of memory: addresses strictly rising and inside MEM, no byte 0 listed. -/
abbrev Memory.wf (m : List Host.Cell) : Prop :=
  m.Pairwise (fun c d => c.1 < d.1) ∧ ∀ c ∈ m, c.1 < Config.memSize ∧ c.2 ≠ 0

/-- `MemRead(addr, 1)` for an address inside MEM (20_memory.md R53); the bound is checked by the caller with `firstOutside`. -/
def State.memRead (s : State) (a : Nat) : Byte := Memory.read s.mem a

/-- The `n` bytes from address `a` up. -/
def State.memReadList (s : State) (a n : Nat) : List Byte := (List.range n).map (fun k => s.memRead (a + k))

/-- Stores of consecutive bytes from address `a` up (20_memory.md R53, R57). -/
def State.memWriteList (s : State) (a : Nat) (bs : List Byte) : State := { s with mem := Memory.writeList s.mem a bs }

/-- The first of the `n` addresses from `base` up that exceeds 0xFFF, if one does (20_memory.md R53; 60_exceptions.md R162, row `mem`).
Addresses are naturals, so nothing wraps (44_index_memory.md R146). -/
def firstOutside (base n : Nat) : Option Nat :=
  if n = 0 then none else if base + n - 1 ≤ Config.memTop then none else some (max base Config.memSize)

/-! ### Framebuffer -/

/-- Pixel `p` (10_state.md R29). -/
def Framebuffer.get (fb : Framebuffer) (p : Nat) : Bool := fb.getLsbD p

/-- `FB[p] <- FB[p] xor 1` (40_display.md R91). -/
def Framebuffer.toggle (fb : Framebuffer) (p : Nat) : Framebuffer := fb ^^^ (1#2048 <<< p)

/-! ### Keypad -/

/-- `KEYS[k]` for `k` from 0 to 15 (10_state.md R30); every other index is turned away before (60_exceptions.md R162, R163). -/
def State.key (s : State) (k : Nat) : Bool := if h : k < 16 then s.keys[k] else false

/-- `KEYS[k] <- down` for `k` from 0 to 15 (10_state.md R30). -/
def State.setKey (s : State) (k : Nat) (down : Bool) : State :=
  if h : k < 16 then { s with keys := s.keys.set k down } else s

/-! ### Faults -/

/-- The numeric code of an error kind (60_exceptions.md R164, decision D14). -/
def FaultKind.code : FaultKind → Nat
  | .unknownOpcode => 1
  | .outOfBoundsAccess => 2
  | .invalidKeyIndex => 3

/-- The numeric code of a space (60_exceptions.md R164, decision D14). -/
def Space.code : Space → Nat
  | .fetch => 0
  | .mem => 1
  | .stack => 2
  | .fb => 3
  | .key => 4
  | .load => 5

/-- The record of `UnknownOpcode(w, a)` (60_exceptions.md R161). -/
def unknownOpcodeRecord (w a : Word) : FaultRecord :=
  { kind := .unknownOpcode, code := FaultKind.unknownOpcode.code, opcode := some w, addr := a, info := none }

/-- The record of `OutOfBoundsAccess(space, index)` (60_exceptions.md R162, R165). -/
def outOfBoundsRecord (opcode : Option Word) (a : Word) (space : Space) (index : Nat) : FaultRecord :=
  { kind := .outOfBoundsAccess, code := FaultKind.outOfBoundsAccess.code, opcode := opcode, addr := a, info := some (space, index) }

/-- Fault entry (60_exceptions.md R165): FAULT is written if it is None, RUN_CPU is cleared, nothing else changes. -/
def State.takeFault (s : State) (r : FaultRecord) : State :=
  { s with fault := if s.fault.isNone then some r else s.fault, runCpu := false }

/-- The address of the instruction being executed: PC has been advanced by 2 past it (30_encoding.md R70, R71). -/
def State.instrAddr (s : State) : Word := s.pc - 2

/-- `raise OutOfBoundsAccess(space, index)` inside the instruction `i` (00_scope.md R8; 60_exceptions.md R165): the record carries the
instruction's word and address (assumption 14). -/
def State.raiseOutOfBounds (s : State) (i : Instr) (space : Space) (index : Nat) : Host.Outcome State Fault Refusal :=
  .next (s.takeFault (outOfBoundsRecord (some (encode i)) s.instrAddr space index))

/-! ### Call stack -/

/-- A push, if an entry is free: `STACK[SP] <- w`, `SP <- SP + 1` (41_flow.md R102). -/
def State.push (s : State) (w : Word) : Option State :=
  if h : s.sp.val < 16 then some { s with stack := s.stack.set s.sp.val w, sp := ⟨s.sp.val + 1, by omega⟩ } else none

/-- A pop, if an entry is in use: `SP <- SP - 1`, then `STACK[SP]`; the entry is not erased (41_flow.md R100). -/
def State.pop (s : State) : Option (Word × State) :=
  if h : 0 < s.sp.val then some (s.stack[s.sp.val - 1], { s with sp := ⟨s.sp.val - 1, by omega⟩ }) else none

end Sys2Proof.Machine
end

