-- ==== Sys2Proof/Machine/Alu.lean ====
section
/-! DEFINITION. Register load, arithmetic, logic, shift and random: 6XNN, 7XNN, 8XY0 to 8XYE, CXNN (43_alu.md R120 to R133). -/

namespace Sys2Proof.Machine

/-- 6XNN `LD VX, NN` (43_alu.md R120). -/
def execLdImm (x : Nibble) (nn : Byte) (s : State) : Host.Outcome State Fault Refusal := .next (s.setReg x nn)

/-- 7XNN `ADD VX, NN`, no flag (43_alu.md R121). -/
def execAddImm (x : Nibble) (nn : Byte) (s : State) : Host.Outcome State Fault Refusal := .next (s.setReg x (s.reg x + nn))

/-- 8XY0 `LD VX, VY` (43_alu.md R122). -/
def execLdReg (x y : Nibble) (s : State) : Host.Outcome State Fault Refusal := .next (s.setReg x (s.reg y))

/-- 8XY1 `OR VX, VY` (43_alu.md R123). -/
def execOrReg (x y : Nibble) (s : State) : Host.Outcome State Fault Refusal := .next (s.setReg x (s.reg x ||| s.reg y))

/-- 8XY2 `AND VX, VY` (43_alu.md R124). -/
def execAndReg (x y : Nibble) (s : State) : Host.Outcome State Fault Refusal := .next (s.setReg x (s.reg x &&& s.reg y))

/-- 8XY3 `XOR VX, VY` (43_alu.md R125). -/
def execXorReg (x y : Nibble) (s : State) : Host.Outcome State Fault Refusal := .next (s.setReg x (s.reg x ^^^ s.reg y))

/-- 8XY4 `ADD VX, VY` (43_alu.md R126). -/
def execAddReg (x y : Nibble) (s : State) : Host.Outcome State Fault Refusal :=
  .next (s.setRegFlag x (s.reg x + s.reg y) (carryFlag (s.reg x) (s.reg y)))

/-- 8XY5 `SUB VX, VY` (43_alu.md R127). -/
def execSubReg (x y : Nibble) (s : State) : Host.Outcome State Fault Refusal :=
  .next (s.setRegFlag x (s.reg x - s.reg y) (greaterFlag (s.reg x) (s.reg y)))

/-- 8XY6 `SHR VX`; `Y` is decoded but unused (43_alu.md R128). -/
def execShr (x _y : Nibble) (s : State) : Host.Outcome State Fault Refusal :=
  .next (s.setRegFlag x (s.reg x >>> 1) (lowBitFlag (s.reg x)))

/-- 8XYE `SHL VX`; `Y` is decoded but unused (43_alu.md R129). -/
def execShl (x _y : Nibble) (s : State) : Host.Outcome State Fault Refusal :=
  .next (s.setRegFlag x (s.reg x <<< 1) (highBitFlag (s.reg x)))

/-- CXNN `RND VX, NN` (43_alu.md R130): one fresh random byte, which is a free value (R133; assumption 6). -/
def execRnd (x : Nibble) (nn : Byte) (s : State) : Host.Outcome State Fault Refusal :=
  .next { (s.setReg x (Config.rnd s.draws &&& nn)) with draws := s.draws + 1 }

end Sys2Proof.Machine
end

