-- ==== Sys2Proof/Machine/Operands.lean ====
section
/-! DEFINITION. The operand forms: immediates (30_encoding.md R74), the effective address I + k (44_index_memory.md R146), the decimal digits of
FX33, and the pixels a sprite names (40_display.md R91). -/

namespace Sys2Proof.Machine

/-- `zext_16(NNN)` (30_encoding.md R74). -/
def addrOperand (nnn : Addr12) : Word := nnn.setWidth 16

/-- `zext_16(V[X])` (44_index_memory.md R141, R142; 41_flow.md R103). -/
def regOperand (b : Byte) : Word := b.setWidth 16

/-- The base of every data access, I as a natural number (44_index_memory.md R146). -/
def State.dataBase (s : State) : Nat := s.i.toNat

/-- The effective address `I + k`, formed without wrap-around (44_index_memory.md R146). -/
def State.effectiveAddr (s : State) (k : Nat) : Nat := s.dataBase + k

/-- The address of the font glyph for a value: `VX * 5` (44_index_memory.md R142). -/
def glyphAddr (b : Byte) : Word := regOperand b * 5

/-- The three decimal digits, hundreds first (44_index_memory.md R143). -/
def decimalDigits (a : Byte) : List Byte := [a / 100, (a / 10) % 10, a % 10]

/-- The number of registers V0 to VX (44_index_memory.md R144, R145). -/
def regCount (x : Nibble) : Nat := x.toNat + 1

/-- The values of V0 to VX, V0 first (44_index_memory.md R144). -/
def State.regsUpTo (s : State) (x : Nibble) : List Byte := (List.range (regCount x)).map (fun k => s.reg (BitVec.ofNat 4 k))

/-- `V[k] <- b` for the bytes of a list, from register number `k` up (44_index_memory.md R145). -/
def State.setRegsFrom (s : State) (k : Nat) : List Byte → State
  | [] => s
  | b :: bs => (s.setReg (BitVec.ofNat 4 k) b).setRegsFrom (k + 1) bs

/-- The pixel index of sprite row `r`, column `c` at column `vx`, row `vy`: linear, with stride 64, the register values unreduced
(40_display.md R91, decision D4). -/
def pixelIndex (vx vy : Byte) (r c : Nat) : Nat := (vx.toNat + c) + Config.fbWidth * (vy.toNat + r)

/-- Bit `7 - c` of a sprite byte is column `c` (40_display.md R91, decision D6). -/
def spriteBit (row : Byte) (c : Nat) : Bool := row.getLsbD (7 - c)

/-- The columns of one sprite row whose bit is set, left to right (40_display.md R91). -/
def setColumns (row : Byte) : List Nat := (List.range 8).filter (spriteBit row)

/-- The pixels under the set bits of the rows from row number `r` on, in row-major order (40_display.md R91). -/
def spritePixels (vx vy : Byte) (r : Nat) : List Byte → List Nat
  | [] => []
  | row :: rows => (setColumns row).map (pixelIndex vx vy r) ++ spritePixels vx vy (r + 1) rows

/-- The write pass of a draw: each pixel is toggled, and a hit is a pixel that was on (40_display.md R91). -/
def drawPixels (fb : Framebuffer) (hit : Bool) : List Nat → Framebuffer × Bool
  | [] => (fb, hit)
  | p :: ps => drawPixels (Framebuffer.toggle fb p) (hit || Framebuffer.get fb p) ps

end Sys2Proof.Machine
end

