-- ==== Sys2Proof/Machine/Display.lean ====
section
/-! DEFINITION. The display instructions 00E0 and DXYN (40_display.md R90, R91). PC has been advanced when a meaning runs (30_encoding.md R71). -/

namespace Sys2Proof.Machine

/-- 00E0 `CLS` (40_display.md R90). -/
def execCls (s : State) : Host.Outcome State Fault Refusal := .next { s with fb := 0, dirty := true }

/-- The rows of the sprite at I (40_display.md R91). -/
def State.spriteRows (s : State) (n : Nibble) : List Byte := s.memReadList s.dataBase n.toNat

/-- The pixels a draw of this form toggles (40_display.md R91). -/
def State.drawnPixels (s : State) (x y n : Nibble) : List Nat := spritePixels (s.reg x) (s.reg y) 0 (s.spriteRows n)

/-- The write pass: FB, then VF, then `dirty` (40_display.md R91; 43_alu.md R132). -/
def State.draw (s : State) (ps : List Nat) : State :=
  let r := drawPixels s.fb false ps
  { (s.setReg vf (collisionFlag r.2)) with fb := r.1, dirty := true }

/-- DXYN `DRW VX, VY, N` (40_display.md R91): the memory check precedes the framebuffer check, both precede the first write. -/
def execDrw (x y n : Nibble) (s : State) : Host.Outcome State Fault Refusal :=
  match firstOutside s.dataBase n.toNat with
  | some a => s.raiseOutOfBounds (.drw x y n) .mem a
  | none =>
    match (s.drawnPixels x y n).find? (fun p => decide (Config.fbSize ≤ p)) with
    | some p => s.raiseOutOfBounds (.drw x y n) .fb p
    | none => .next (s.draw (s.drawnPixels x y n))

end Sys2Proof.Machine
end

