-- ==== Sys2Proof/Machine/Flow.lean ====
section
/-! DEFINITION. Control transfer: 00EE, 1NNN, 2NNN, BNNN (41_flow.md R100 to R103). -/

namespace Sys2Proof.Machine

/-- 00EE `RET` (41_flow.md R100). -/
def execRet (s : State) : Host.Outcome State Fault Refusal :=
  match s.pop with
  | some (w, t) => .next (t.setPc w)
  | none => s.raiseOutOfBounds .ret .stack s.sp.val

/-- 1NNN `JP NNN` (41_flow.md R101). -/
def execJp (nnn : Addr12) (s : State) : Host.Outcome State Fault Refusal := .next (s.setPc (addrOperand nnn))

/-- 2NNN `CALL NNN` (41_flow.md R102). -/
def execCall (nnn : Addr12) (s : State) : Host.Outcome State Fault Refusal :=
  match s.push s.pc with
  | some t => .next (t.setPc (addrOperand nnn))
  | none => s.raiseOutOfBounds (.call nnn) .stack s.sp.val

/-- BNNN `JP V0, NNN` (41_flow.md R103). -/
def execJpV0 (nnn : Addr12) (s : State) : Host.Outcome State Fault Refusal :=
  .next (s.setPc (addrOperand nnn + regOperand (s.reg 0)))

end Sys2Proof.Machine
end

