-- ==== Sys2Proof/Machine/Index.lean ====
section
/-! DEFINITION. The index register and memory instructions: ANNN, FX1E, FX29, FX33, FX55, FX65 (44_index_memory.md R140 to R146). -/

namespace Sys2Proof.Machine

/-- ANNN `LD I, NNN` (44_index_memory.md R140). -/
def execLdI (nnn : Addr12) (s : State) : Host.Outcome State Fault Refusal := .next (s.setI (addrOperand nnn))

/-- FX1E `ADD I, VX`, modulo 65536, no flag (44_index_memory.md R141). -/
def execAddI (x : Nibble) (s : State) : Host.Outcome State Fault Refusal := .next (s.setI (s.i + regOperand (s.reg x)))

/-- FX29 `LD F, VX` (44_index_memory.md R142). -/
def execLdF (x : Nibble) (s : State) : Host.Outcome State Fault Refusal := .next (s.setI (glyphAddr (s.reg x)))

/-- A store of consecutive bytes at I by the instruction `i`, all addresses checked before the first write (44_index_memory.md R143,
R144; 60_exceptions.md R166). -/
def State.storeAtI (s : State) (i : Instr) (bs : List Byte) : Host.Outcome State Fault Refusal :=
  match firstOutside s.dataBase bs.length with
  | some a => s.raiseOutOfBounds i .mem a
  | none => .next (s.memWriteList s.dataBase bs)

/-- FX33 `LD B, VX` (44_index_memory.md R143). -/
def execLdB (x : Nibble) (s : State) : Host.Outcome State Fault Refusal := s.storeAtI (.ldB x) (decimalDigits (s.reg x))

/-- FX55 `LD [I], VX`; I is unchanged (44_index_memory.md R144, decision D11). -/
def execStoreRegs (x : Nibble) (s : State) : Host.Outcome State Fault Refusal := s.storeAtI (.storeRegs x) (s.regsUpTo x)

/-- FX65 `LD VX, [I]`; I is unchanged (44_index_memory.md R145, decision D11). -/
def execLoadRegs (x : Nibble) (s : State) : Host.Outcome State Fault Refusal :=
  match firstOutside s.dataBase (regCount x) with
  | some a => s.raiseOutOfBounds (.loadRegs x) .mem a
  | none => .next (s.setRegsFrom 0 (s.memReadList s.dataBase (regCount x)))

end Sys2Proof.Machine
end

