-- ==== Sys2Proof/Machine/Skip.lean ====
section
/-! DEFINITION. Conditional skips on registers: 3XNN, 4XNN, 5XY0, 9XY0 (42_skip.md R110 to R113). -/

namespace Sys2Proof.Machine

/-- Past the next instruction if the condition holds (42_skip.md): `PC <- PC + 2` on top of the cycle's own advance. -/
def State.skipIf (s : State) (c : Bool) : State := if c then s.advance else s

/-- 3XNN `SE VX, NN` (42_skip.md R110). -/
def execSeImm (x : Nibble) (nn : Byte) (s : State) : Host.Outcome State Fault Refusal := .next (s.skipIf (s.reg x == nn))

/-- 4XNN `SNE VX, NN` (42_skip.md R111). -/
def execSneImm (x : Nibble) (nn : Byte) (s : State) : Host.Outcome State Fault Refusal := .next (s.skipIf (s.reg x != nn))

/-- 5XY0 `SE VX, VY` (42_skip.md R112). -/
def execSeReg (x y : Nibble) (s : State) : Host.Outcome State Fault Refusal := .next (s.skipIf (s.reg x == s.reg y))

/-- 9XY0 `SNE VX, VY` (42_skip.md R113). -/
def execSneReg (x y : Nibble) (s : State) : Host.Outcome State Fault Refusal := .next (s.skipIf (s.reg x != s.reg y))

end Sys2Proof.Machine
end

