-- ==== Sys2Proof/Machine/Keypad.lean ====
section
/-! DEFINITION. The keypad and timer instructions: EX9E, EXA1, FX07, FX0A, FX15, FX18 (45_keypad_timers.md R150 to R155). -/

namespace Sys2Proof.Machine

/-- A skip of the instruction `i` on the state of the key whose index is `V[X]`; an index above 0xF faults (45_keypad_timers.md R150,
R151, decision D8). -/
def State.skipOnKey (s : State) (i : Instr) (x : Nibble) (down : Bool) : Host.Outcome State Fault Refusal :=
  if legalKey (s.reg x).toNat then .next (s.skipIf (s.key (s.reg x).toNat == down))
  else s.raiseOutOfBounds i .key (s.reg x).toNat

/-- EX9E `SKP VX` (45_keypad_timers.md R150). -/
def execSkp (x : Nibble) (s : State) : Host.Outcome State Fault Refusal := s.skipOnKey (.skp x) x true

/-- EXA1 `SKNP VX` (45_keypad_timers.md R151). -/
def execSknp (x : Nibble) (s : State) : Host.Outcome State Fault Refusal := s.skipOnKey (.sknp x) x false

/-- FX07 `LD VX, DT` (45_keypad_timers.md R152). -/
def execLdVxDt (x : Nibble) (s : State) : Host.Outcome State Fault Refusal := .next (s.setReg x s.dt)

/-- FX0A `LD VX, K`: the cycle opens the wait; the key event writes the register (45_keypad_timers.md R153; 60_exceptions.md R178). -/
def execLdVxK (x : Nibble) (s : State) : Host.Outcome State Fault Refusal := .next { s with waitx := x, gate := .awaitingKey }

/-- FX15 `LD DT, VX` (45_keypad_timers.md R154). -/
def execLdDtVx (x : Nibble) (s : State) : Host.Outcome State Fault Refusal := .next { s with dt := s.reg x }

/-- FX18 `LD ST, VX`; TONE is left to the tick (45_keypad_timers.md R155). -/
def execLdStVx (x : Nibble) (s : State) : Host.Outcome State Fault Refusal := .next { s with st := s.reg x }

end Sys2Proof.Machine
end

