-- ==== Sys2Proof/Machine/Cycle.lean ====
section
/-! DEFINITION. One CPU cycle (30_encoding.md R70): fetch, advance, decode, execute, count, flush. -/

namespace Sys2Proof.Machine

/-- The fetch is inside MEM: both bytes exist (20_memory.md R54). -/
def State.canFetch (s : State) : Bool := s.pc.toNat + 1 ≤ Config.memTop

/-- `MemRead(PC, 2)`, big-endian (20_memory.md R54). -/
def State.fetchWord (s : State) : Word := wordOfBytes (s.memRead s.pc.toNat) (s.memRead (s.pc.toNat + 1))

/-- A cycle begins with its output `dirty` at 0 (00_scope.md R8; 10_state.md R39). -/
def State.clearDirty (s : State) : State := { s with dirty := false }

/-- The state an instruction executes on: `dirty` 0, PC advanced (30_encoding.md R70 step 3, R71). -/
def State.fetched (s : State) : State := s.clearDirty.advance

/-- Steps 6 and 7: BC counts the cycle, and a dirty framebuffer is flushed to the display sink (30_encoding.md R70; 40_display.md R92). -/
def State.completeCycle (s : State) : State :=
  { s with bc := s.bc + 1, shown := if s.dirty then some s.fb else s.shown }

/-- The end of a cycle whose instruction gave `o`. A fault entry has cleared RUN_CPU and ends the cycle at once (30_encoding.md R70;
60_exceptions.md R165); no instruction clears it otherwise. -/
def endCycle (o : Host.Outcome State Fault Refusal) : Host.Outcome State Fault Refusal :=
  match o with
  | .next t => .next (if t.runCpu then t.completeCycle else t)
  | .fault r => .fault r
  | .refused r => .refused r

/-- One CPU cycle, from a state in which it is enabled (30_encoding.md R70). The fetch check comes first, then decoding, then the
instruction's own checks (60_exceptions.md R167). -/
def cpuCycle (s : State) : Host.Outcome State Fault Refusal :=
  if s.canFetch then
    match decode s.fetchWord with
    | .ok i => endCycle (exec i s.fetched)
    | .error _ => .next (s.fetched.takeFault (unknownOpcodeRecord s.fetchWord s.pc))
  else .next (s.clearDirty.takeFault (outOfBoundsRecord none s.pc .fetch s.pc.toNat))

end Sys2Proof.Machine
end

