-- ==== Sys2Proof/Machine/Events.lean ====
section
/-! DEFINITION. The events of the other agents (60_exceptions.md R170): timer tick, key events, reset, load, start, stop; and the read-only
snapshot (10_state.md R45). Each is the event's effect on a state in which it is enabled; Machine/Schedule.lean says when it is. -/

namespace Sys2Proof.Machine

/-- The timer tick (60_exceptions.md R175). -/
def State.tick (s : State) : State :=
  { s with
    tone := decide (0 < s.st.toNat)
    st := if 0 < s.st.toNat then s.st - 1 else s.st
    dt := if 0 < s.dt.toNat then s.dt - 1 else s.dt }

/-- A waiting FX0A ends: `V[WAITX] <- k`, `GATE <- Running` (60_exceptions.md R177, R178). -/
def State.endWait (s : State) (k : Nat) : State := { (s.setReg s.waitx (BitVec.ofNat 8 k)) with gate := .running }

/-- `key_down(k)` (60_exceptions.md R178); an index outside 0 to 15 is rejected without effect (R163). -/
def State.keyDown (s : State) (k : Nat) : State :=
  if legalKey k then
    if s.gate = .awaitingKey then (s.setKey k true).endWait k else s.setKey k true
  else s

/-- `key_up(k)` (60_exceptions.md R179); an index outside 0 to 15 is rejected without effect (R163). -/
def State.keyUp (s : State) (k : Nat) : State := if legalKey k then s.setKey k false else s

/-- The font table as `load` writes it (20_memory.md R52). -/
def fontTable : List Byte := (List.range Config.fontBytes).map Config.font

/-- `load(bytes)` (70_reset_and_hazards.md R191): the font and the program are written, or an over-long program is rejected whole. -/
def State.load (s : State) (bytes : List Byte) : State :=
  if legalRom bytes then
    { ((s.memWriteList Config.fontBase fontTable).memWriteList Config.progBase bytes) with rejected := none }
  else { s with rejected := some (.load, bytes.length) }

/-- `start` (70_reset_and_hazards.md R193). -/
def State.start (s : State) : State := { s with life := .active, runCpu := true, runTmr := true }

/-- `stop` (70_reset_and_hazards.md R194): nothing else changes, TONE and GATE among it. -/
def State.stop (s : State) : State := { s with life := .stopped, runCpu := false, runTmr := false }

/-- `reset`: a fresh instance (70_reset_and_hazards.md R190). The inputs still to come are the outside world's, so they stay (assumption
7). -/
def State.reconstruct (s : State) : State :=
  { State.reset with agenda := s.agenda, eventCount := s.eventCount, draws := s.draws }

/-- What the optional debug accessors show: the "register file, memory, stack" of 10_state.md R45, and with them every other piece of
state, which 60_exceptions.md R185 (b) says is readable through the snapshot (assumption 36). The accessors are optional
(93_implementation_defined.md U23: present or absent); that this core has them is the model's DESIGN CHOICE (assumption 37). -/
structure Snapshot where
  v : Vector Byte 16
  i : Word
  pc : Word
  sp : Fin 17
  dt : Byte
  st : Byte
  mem : List Host.Cell
  stack : Vector Word 16
  fb : Framebuffer
  keys : Vector Bool 16
  life : Life
  runCpu : Bool
  runTmr : Bool
  gate : Gate
  waitx : Nibble
  bc : Fin 10
  tone : Bool
  fault : Option FaultRecord
  deriving DecidableEq, Repr

/-- What a snapshot of the state holds. -/
def State.view (s : State) : Snapshot :=
  { v := s.v, i := s.i, pc := s.pc, sp := s.sp, dt := s.dt, st := s.st, mem := s.mem, stack := s.stack, fb := s.fb, keys := s.keys,
    life := s.life, runCpu := s.runCpu, runTmr := s.runTmr, gate := s.gate, waitx := s.waitx, bc := s.bc, tone := s.tone,
    fault := s.fault }

end Sys2Proof.Machine
end

