-- ==== Sys2Proof/Machine/Schedule.lean ====
section
/-! DEFINITION. Which event comes next and when it is enabled (60_exceptions.md R170 to R176). -/

namespace Sys2Proof.Machine

/-- The yield-point condition (60_exceptions.md R174). -/
def State.atYield (s : State) : Bool := decide (s.bc = 0) || decide (s.gate = .awaitingKey) || !s.runCpu

/-- A CPU cycle is enabled (60_exceptions.md R172). -/
def State.cycleEnabled (s : State) : Bool := s.runCpu && decide (s.gate = .running)

/-- The next event: the agenda's first, or a free value (60_exceptions.md R176; assumption 7). -/
def State.nextEvent (s : State) : Event :=
  match s.agenda with
  | [] => Config.freeEvent s.eventCount
  | e :: _ => e

/-- The next event is taken from where it came. -/
def State.takeEvent (s : State) : State :=
  match s.agenda with
  | [] => { s with eventCount := s.eventCount + 1 }
  | _ :: es => { s with agenda := es }

/-- An event that lands at yield points only (60_exceptions.md R174): at one it has its effect; inside a batch it waits and the CPU loop
goes on with the batch (R173; assumption 8). -/
def State.atBoundary (s : State) (effect : State → State) : Host.Outcome State Fault Refusal :=
  if s.atYield then .next (effect s.takeEvent) else cpuCycle s

/-- The snapshot, which is there at yield points only (10_state.md R41, R45; 60_exceptions.md R174, R185); a read, so no state changes. That
the core has it is the model's DESIGN CHOICE (93_implementation_defined.md U23; assumption 37). -/
def State.snapshot (s : State) : Option Snapshot := if s.atYield then some s.view else none

/-- The event `e` happens, if it is enabled (60_exceptions.md R170). The timer tick and the CPU cycle do not happen where their loop is
not running or suspended, and a key event in Stopped is ignored (R178): then only the event is gone (assumption 9). -/
def runEvent (e : Event) (s : State) : Host.Outcome State Fault Refusal :=
  match e with
  | .reset => .next s.takeEvent.reconstruct
  | .load bytes => if s.life = .idle then .next (s.takeEvent.load bytes) else .refused .loadOutsideIdle
  | .start => if s.life = .idle then .next s.takeEvent.start else .refused .startOutsideIdle
  | .stop => if s.life = .stopped then .refused .stopAfterStop else s.atBoundary State.stop
  | .cycle => if s.cycleEnabled then cpuCycle s.takeEvent else .next s.takeEvent
  | .tick => if s.runTmr then s.atBoundary State.tick else .next s.takeEvent
  | .keyDown k => if s.life = .stopped then .next s.takeEvent else s.atBoundary (·.keyDown k)
  | .keyUp k => if s.life = .stopped then .next s.takeEvent else s.atBoundary (·.keyUp k)

/-- A program placed for the very next cycle stands for a `load` and a `start` (70_reset_and_hazards.md R192; assumption 27): the word's
bytes at PC (at the reset PC where PC is too high to fetch from), both loops running, the gate open, a CPU cycle next. -/
def State.placeWord (s : State) (w : Word) : State :=
  let t := if s.canFetch then s else s.setPc Config.pcReset
  { (t.memWriteList t.pc.toNat (bytesOfWord w)).start with gate := .running, agenda := .cycle :: s.agenda }

end Sys2Proof.Machine
end

