-- ==== Sys2Proof/Machine/Step.lean ====
section
/-! DEFINITION. One step of the machine: the next event of the run (60_exceptions.md R170, R176). -/

namespace Sys2Proof.Machine

/-- One step: the next event happens. -/
def step (s : State) : Host.Outcome State Fault Refusal := runEvent s.nextEvent s

/-- The state with an instruction placed where step fetches its next one, its bits numbered as spec/opcode_table.json numbers them,
so that the very next step runs it. -/
def State.withFetchWord (s : State) (nbits w : Nat) : State := s.placeWord (tableWord nbits w)

end Sys2Proof.Machine
end

