-- ==== Sys2Proof/Safety.lean ====
section
/-! DEFINITION. What counts as a safe run, and the vocabulary of claims: the invariants of the core (10_state.md R44), the end of a run
(70_reset_and_hazards.md R196, R197), and what an instruction leaves alone. -/

namespace Sys2Proof.Machine

/-- Every return address in use is one a CALL pushed, at most 0x1000 (10_state.md R44; 41_flow.md R100). -/
abbrev State.StackBounded (s : State) : Prop := ∀ k : Fin 16, k.val < s.sp.val → (s.stack[k.val]).toNat ≤ 0x1000

/-- PC and the return addresses in use stay below their bounds (10_state.md R44). -/
abbrev State.PcBounded (s : State) : Prop := s.pc.toNat ≤ 0x10FE ∧ s.StackBounded

/-- LIFE, the running flags, the gate and FAULT fit together (10_state.md R31 to R34, R38, R44). -/
abbrev State.ControlConsistent (s : State) : Prop :=
  (s.runTmr = true ↔ s.life = .active) ∧ (s.runCpu = true → s.life = .active) ∧ (s.fault ≠ none → s.runCpu = false) ∧
  (s.life = .idle → s.gate = .running ∧ s.fault = none) ∧
  (s.gate = .awaitingKey → s.runCpu = true ∨ s.life = .stopped)

/-- No fault is recorded: a run that ends otherwise is never a good end (70_reset_and_hazards.md R197). -/
abbrev State.FaultFree (s : State) : Prop := s.fault = none

/-- The recommended end of a run: PC at a jump to itself, gate Running, no fault (70_reset_and_hazards.md R196). It does not say that the
core or its timers have stopped. -/
abbrev State.AtEnd (s : State) : Prop :=
  s.canFetch = true ∧ decode s.fetchWord = .ok (.jp (s.pc.setWidth 12)) ∧ s.gate = .running ∧ s.FaultFree

/-- Every byte of memory reads as before. -/
def MemoryKept (s t : State) : Prop := ∀ a, t.memRead a = s.memRead a

/-- `t` is `s` but for the registers in `changed`: every other register, every byte of memory and every other piece of state is
unchanged. -/
def OnlyRegisters (changed : Nibble → Prop) (s t : State) : Prop :=
  (∀ r, ¬ changed r → t.reg r = s.reg r) ∧ MemoryKept s t ∧ t = { s with v := t.v }

/-- `t` is `s` but for PC: every register, every byte of memory and every other piece of state is unchanged. -/
def OnlyPc (s t : State) : Prop := (∀ r, t.reg r = s.reg r) ∧ MemoryKept s t ∧ t = { s with pc := t.pc }

/-- `t` is `s` but for I. -/
def OnlyIndex (s t : State) : Prop := (∀ r, t.reg r = s.reg r) ∧ MemoryKept s t ∧ t = { s with i := t.i }

/-- `t` is `s` but for the `n` bytes of memory from address `base` up: every other byte reads as before, every register and every
other piece of state is unchanged. -/
def OnlyMemory (base n : Nat) (s t : State) : Prop :=
  (∀ a, (a < base ∨ base + n ≤ a) → t.memRead a = s.memRead a) ∧ (∀ r, t.reg r = s.reg r) ∧ t = { s with mem := t.mem }

/-- The instruction `i` takes the fault OutOfBoundsAccess(space, index) (60_exceptions.md R162, R165, R166, with
decisions D7, D13 and D14): FAULT is written with the
instruction's word and its address, PC - 2, if it was None; RUN_CPU is cleared; nothing else changes. -/
def FaultsOutOfBounds (i : Instr) (s : State) (space : Space) (index : Nat) : Prop :=
  exec i s = .next { s with
    fault := if s.fault = none then some ⟨.outOfBoundsAccess, 2, some (encode i), s.pc - 2, some (space, index)⟩ else s.fault
    runCpu := false }

/-- The bit of sprite row `r`, column `c` at I is set (40_display.md R91): bit `7 - c` of the byte at `I + r`. -/
def SpriteOn (s : State) (n : Nibble) (r c : Nat) : Prop :=
  r < n.toNat ∧ c < 8 ∧ (s.memRead (s.i.toNat + r)).getLsbD (7 - c) = true

/-- The linear pixel index of sprite row `r`, column `c` (40_display.md R91). -/
def spritePixel (s : State) (x y : Nibble) (r c : Nat) : Nat := ((s.reg x).toNat + c) + 64 * ((s.reg y).toNat + r)

/-- Pixel `p` lies under a set bit of the sprite (40_display.md R91). -/
def UnderSprite (s : State) (x y n : Nibble) (p : Nat) : Prop :=
  ∃ r c, SpriteOn s n r c ∧ p = spritePixel s x y r c

/-- The rows of the sprite all lie in MEM (40_display.md R91). -/
def SpriteInMemory (s : State) (n : Nibble) : Prop := n.toNat = 0 ∨ s.i.toNat + n.toNat - 1 ≤ 0xFFF

end Sys2Proof.Machine
end

