-- ==== Sys2Proof/Certificates/Slice0/Obligations.lean ====
section
/-! DEFINITION. The statements for the provers. Each docstring names the rules of spec/ it formalises; where a clause rests on a
decision of 92_eei_decisions.md or on an entry of the assumption log, it says so. -/

open Sys2Proof Sys2Proof.Machine

/-! ### Encoding and decoding -/

/-- 30_encoding.md R75, R84: decoding the word of any instruction gives that instruction back, every field at every value. -/
def Obligations.DecodeOfEncodeIsTheInstruction : Prop := ∀ i : Instr, decode (encode i) = .ok i

/-- 30_encoding.md R72, R75, R84: a word that decodes is the word of the instruction it decodes to, so decoding drops no bit, the
don't-care field of SHR and SHL among them. It rests on the spec's own decision D2 (strict matching, assumption 16). -/
def Obligations.EncodeOfDecodedIsTheWord : Prop := ∀ (w : Word) (i : Instr), decode w = .ok i → encode i = w

/-- 30_encoding.md R75 (with decision D2, strict matching): at most one row of the opcode map matches any word; the decision tree
accepts exactly the words that match one in every fixed digit, and rejects the others by name. -/
def Obligations.DecodesExactlyTheWordsOfTheOpcodeMap : Prop :=
  ∀ w : Word,
    (∀ r₁ ∈ opcodeRows, ∀ r₂ ∈ opcodeRows, w &&& r₁.mask = r₁.pattern → w &&& r₂.mask = r₂.pattern → r₁ = r₂) ∧
    ((∃ i, decode w = .ok i) ↔ ∃ r ∈ opcodeRows, w &&& r.mask = r.pattern) ∧
    ((∀ r ∈ opcodeRows, w &&& r.mask ≠ r.pattern) → decode w = .error (.unknownOpcode w))

/-- 30_encoding.md R78 (families with decision D2): the complete list of illegal words, by family. -/
def Obligations.IllegalWordsAreThoseListedByFamily : Prop :=
  ∀ w : Word, decode w = .error (.unknownOpcode w) ↔
    (w >>> 12 = 0x0 ∧ w ≠ 0x00E0 ∧ w ≠ 0x00EE) ∨
    (w >>> 12 = 0x5 ∧ w &&& 0xF ≠ 0) ∨
    (w >>> 12 = 0x8 ∧ (w &&& 0xF).toNat ∈ [0x7, 0x8, 0x9, 0xA, 0xB, 0xC, 0xD, 0xF]) ∨
    (w >>> 12 = 0x9 ∧ w &&& 0xF ≠ 0) ∨
    (w >>> 12 = 0xE ∧ (w &&& 0xFF).toNat ∉ [0x9E, 0xA1]) ∨
    (w >>> 12 = 0xF ∧ (w &&& 0xFF).toNat ∉ [0x07, 0x0A, 0x15, 0x18, 0x1E, 0x29, 0x33, 0x55, 0x65])

/-- 95_test_vectors.md 2.3, 2.4 and 2.7, words the spec writes out with their meaning: a sanity statement. That 0x01E0 and 0x5121 are no
instructions is the spec's own decision D2 (strict matching, assumption 16). -/
def Obligations.WordsOfTheSpecDecodeAsItSays : Prop :=
  decode 0x637F = .ok (.ldImm 3 0x7F) ∧ decode 0x8AB4 = .ok (.addReg 0xA 0xB) ∧ decode 0xD125 = .ok (.drw 1 2 5) ∧
  decode 0xECA1 = .ok (.sknp 0xC) ∧ decode 0xFF55 = .ok (.storeRegs 0xF) ∧ decode 0x22F0 = .ok (.call 0x2F0) ∧
  decode 0xB123 = .ok (.jpV0 0x123) ∧ decode 0x8406 = .ok (.shr 4 0) ∧ decode 0x1234 = .ok (.jp 0x234) ∧
  decode 0x0000 = .error (.unknownOpcode 0x0000) ∧ decode 0x01E0 = .error (.unknownOpcode 0x01E0) ∧
  decode 0x5121 = .error (.unknownOpcode 0x5121) ∧ decode 0x8127 = .error (.unknownOpcode 0x8127)

/-! ### The CPU cycle -/

/-- 30_encoding.md R70, R71; 20_memory.md R54, R55: where a CPU cycle is next and enabled, and the two bytes at PC, high byte first,
decode to `i`, step is exec of `i` on the state whose PC is advanced by 2 and whose `dirty` is 0; then, unless the instruction
faulted, BC counts the cycle modulo 10 and a dirty framebuffer is flushed to the display sink. -/
def Obligations.StepRunsTheDecodedInstruction : Prop :=
  ∀ (s : State) (i : Instr), s.nextEvent = .cycle → s.runCpu = true → s.gate = .running → s.pc.toNat ≤ 0xFFE →
    decode (s.memRead s.pc.toNat ++ s.memRead (s.pc.toNat + 1)) = .ok i →
    step s = endCycle (exec i { s.takeEvent with pc := s.pc + 2, dirty := false }) ∧
    ∀ t, exec i { s.takeEvent with pc := s.pc + 2, dirty := false } = .next t →
      step s = .next (if t.runCpu = true
        then { t with bc := t.bc + 1, shown := if t.dirty = true then some t.fb else t.shown } else t)

/-- 20_memory.md R54: the fetch reads two consecutive bytes, the one at the lower address high; if the second would lie beyond 0xFFF
the cycle raises OutOfBoundsAccess(fetch, PC), with no opcode, PC left as it is and the CPU halted. That it faults is the spec's own
decision D1 (assumption 15); that nothing else changes and that it halts at once are D7 and D13 (assumptions 21, 26), the record's
address is D14 (assumption 28). -/
def Obligations.FetchReadsTwoBytesOrFaults : Prop :=
  ∀ s : State, s.fetchWord.toNat = 256 * (s.memRead s.pc.toNat).toNat + (s.memRead (s.pc.toNat + 1)).toNat ∧
    (s.nextEvent = .cycle → s.runCpu = true → s.gate = .running → 0xFFE < s.pc.toNat → s.fault = none →
      ∃ r, r.kind = .outOfBoundsAccess ∧ r.info = some (.fetch, s.pc.toNat) ∧ r.opcode = none ∧ r.addr = s.pc ∧
        step s = .next { s.takeEvent with fault := some r, runCpu := false, dirty := false })

/-- 60_exceptions.md R161: a fetched word that matches no row of the opcode map records UnknownOpcode with the word and the address it
was fetched from, after PC was advanced, and halts. That nothing else changes and that it halts at once are the spec's own decisions D7 and D13
(R165, R166; assumptions 21, 26), the record's address is D14 (assumption 28), strict matching D2 (assumption 16). -/
def Obligations.UnknownOpcodeHalts : Prop :=
  ∀ (s : State) (w : Word), s.nextEvent = .cycle → s.runCpu = true → s.gate = .running → s.pc.toNat ≤ 0xFFE → s.fault = none →
    w = s.memRead s.pc.toNat ++ s.memRead (s.pc.toNat + 1) → (∀ r ∈ opcodeRows, w &&& r.mask ≠ r.pattern) →
    ∃ r, r.kind = .unknownOpcode ∧ r.opcode = some w ∧ r.addr = s.pc ∧
      step s = .next { s.takeEvent with fault := some r, runCpu := false, pc := s.pc + 2, dirty := false }

/-- 60_exceptions.md R165, R166 (decision D7): a CPU cycle that ends with RUN_CPU cleared changes nothing but PC, which is advanced
unless the fetch itself faulted, FAULT, which is written only if it was None, RUN_CPU and the output `dirty`. That the record's address is the one fetched from is the
spec's own decision D14 (assumption 28), that the CPU halts at once D13 (assumption 26). -/
def Obligations.FaultingCyclesArePrecise : Prop :=
  ∀ s t : State, s.runCpu = true → cpuCycle s = .next t → t.runCpu = false →
    ∃ r : FaultRecord, r.addr = s.pc ∧
      t = { s with
        pc := if s.pc.toNat ≤ 0xFFE then s.pc + 2 else s.pc
        fault := if s.fault = none then some r else s.fault
        runCpu := false, dirty := false }

/-- 60_exceptions.md R162, R165: the record a CPU cycle writes names its cause. A fetched word is recorded whole; an unknown opcode
has no space and index; an out-of-bounds record names its space, and an index that exceeds that space. -/
def Obligations.FaultRecordsNameTheirCause : Prop :=
  ∀ s t : State, s.runCpu = true → s.fault = none → cpuCycle s = .next t → t.runCpu = false →
    ∃ r, t.fault = some r ∧
      (r.opcode = none ↔ 0xFFE < s.pc.toNat) ∧ (∀ w, r.opcode = some w → w = s.fetchWord) ∧
      ((r.kind = .unknownOpcode ∧ r.code = 1 ∧ r.info = none ∧ legalWord s.fetchWord = false) ∨
       (r.kind = .outOfBoundsAccess ∧ r.code = 2 ∧ ∃ k,
        (r.info = some (.fetch, k) ∧ k = s.pc.toNat ∧ 0xFFE < k) ∨ (r.info = some (.mem, k) ∧ 0xFFF < k) ∨
        (r.info = some (.stack, k) ∧ (k = 0 ∨ k = 16)) ∨ (r.info = some (.fb, k) ∧ 2047 < k) ∨
        (r.info = some (.key, k) ∧ 0xF < k)))

/-- 10_state.md R39: `dirty` is 1 exactly for a cycle that executed 00E0 or DXYN without faulting. -/
def Obligations.DirtyExactlyAfterClsAndDrw : Prop :=
  ∀ (s t : State) (i : Instr), s.runCpu = true → s.canFetch = true → decode s.fetchWord = .ok i → cpuCycle s = .next t →
    (t.dirty = true ↔ t.runCpu = true ∧ (i = .cls ∨ ∃ x y n, i = .drw x y n))

/-- 40_display.md R92: after a cycle with `dirty` 1 the display sink holds the whole framebuffer as it stands at the cycle's end; a
cycle with `dirty` 0 flushes nothing, and a faulting cycle (it clears RUN_CPU) has `dirty` 0. -/
def Obligations.DirtyCyclesFlushTheFramebuffer : Prop :=
  ∀ s t : State, s.runCpu = true → cpuCycle s = .next t →
    (t.dirty = true → t.shown = some t.fb) ∧ (t.dirty = false → t.shown = s.shown) ∧
    (t.runCpu = false → t.dirty = false ∧ t.shown = s.shown)

/-- 10_state.md R36 (with decision D16, the cycle of FX0A counts): a cycle that does not fault adds 1 to BC modulo 10; a faulting one
leaves it. -/
def Obligations.CyclesCountInTheBatch : Prop :=
  ∀ s t : State, s.runCpu = true → cpuCycle s = .next t →
    t.bc.val = if t.runCpu = true then (s.bc.val + 1) % 10 else s.bc.val

/-! ### Display -/

/-- 40_display.md R90: CLS clears all 2048 pixels and marks the display dirty, and touches nothing else. -/
def Obligations.ClsClearsEveryPixel : Prop :=
  decode 0x00E0 = .ok .cls ∧
  ∀ s : State, ∃ t, exec .cls s = .next t ∧ (∀ p < 2048, t.fb.getLsbD p = false) ∧ t.dirty = true ∧
    (∀ r, t.reg r = s.reg r) ∧ MemoryKept s t ∧ t = { s with fb := t.fb, dirty := t.dirty }

/-- 40_display.md R91, with the spec's own decisions D3 (VF as coordinate), D4 (linear index), D6 (bit 7 leftmost): a sprite that lies in
memory and whose set bits all fall on the screen toggles exactly the pixels under its set bits; VF is 1 if one of them was on,
else 0; `dirty` is 1; nothing else changes. -/
def Obligations.DrawTogglesThePixelsUnderTheSprite : Prop :=
  ∀ (x y n : Nibble) (s : State), SpriteInMemory s n → (∀ p, UnderSprite s x y n p → p ≤ 2047) →
    decode (encodeXYN 0xD000 x y n) = .ok (.drw x y n) ∧
    ∃ t, exec (.drw x y n) s = .next t ∧
      (∀ p < 2048, (UnderSprite s x y n p → t.fb.getLsbD p = !s.fb.getLsbD p) ∧
        (¬ UnderSprite s x y n p → t.fb.getLsbD p = s.fb.getLsbD p)) ∧
      ((∃ p, UnderSprite s x y n p ∧ s.fb.getLsbD p = true) → t.reg vf = 1) ∧
      ((∀ p, UnderSprite s x y n p → s.fb.getLsbD p = false) → t.reg vf = 0) ∧
      t.dirty = true ∧ (∀ r, r ≠ vf → t.reg r = s.reg r) ∧ MemoryKept s t ∧
      t = { s with v := t.v, fb := t.fb, dirty := t.dirty }

/-- 40_display.md R91, with the spec's own decisions D1 and D7: a sprite row beyond 0xFFF faults with the first such address, and nothing
is drawn. That it does so before any pixel is looked at is the fault priority of decision D24 (60_exceptions.md R167; assumption 31);
the record is D14. -/
def Obligations.DrawFromBeyondMemoryFaults : Prop :=
  ∀ (x y n : Nibble) (s : State), ¬ SpriteInMemory s n →
    FaultsOutOfBounds (.drw x y n) s .mem (max s.i.toNat 0x1000)

/-- 40_display.md R91, with the spec's own decisions D5 (fault past the framebuffer) and D7 (precise): the first set bit in row-major
order whose pixel index exceeds 2047 faults with that index and nothing is drawn. The index is linear by decision D4, and which set
bit comes first rests on D6 (bit 7 leftmost, PRESUMED; assumptions 18, 20); the record is D14. -/
def Obligations.DrawBeyondTheFramebufferFaults : Prop :=
  ∀ (x y n : Nibble) (s : State) (r c : Nat), SpriteInMemory s n → SpriteOn s n r c → 2047 < spritePixel s x y r c →
    (∀ r' c', SpriteOn s n r' c' → (r' < r ∨ (r' = r ∧ c' < c)) → spritePixel s x y r' c' ≤ 2047) →
    FaultsOutOfBounds (.drw x y n) s .fb (spritePixel s x y r c)

/-- 40_display.md R91 (corner case), 90_conflicts.md C5: drawing the same sprite twice restores the framebuffer, and the second draw
leaves VF = 1 exactly when some pixel under a set bit was off before the first. Neither coordinate is taken from VF, which the
first draw writes. Which pixels lie under the set bits rests on the spec's own decisions D4 (linear index) and D6 (bit 7 leftmost,
PRESUMED; assumptions 18, 20). -/
def Obligations.DrawingTwiceRestoresTheFramebuffer : Prop :=
  ∀ (x y n : Nibble) (s t u : State), x ≠ vf → y ≠ vf → SpriteInMemory s n → (∀ p, UnderSprite s x y n p → p ≤ 2047) →
    exec (.drw x y n) s = .next t → exec (.drw x y n) t = .next u →
    u.fb = s.fb ∧ (u.reg vf = 1 ↔ ∃ p, UnderSprite s x y n p ∧ s.fb.getLsbD p = false) ∧
    (u.reg vf = 0 ↔ ¬ ∃ p, UnderSprite s x y n p ∧ s.fb.getLsbD p = false)

/-! ### Control transfer -/

/-- 41_flow.md R100, with decision D1 for the empty stack: RET takes SP down by 1 and PC to the entry there; the entry stays. -/
def Obligations.RetPopsTheCallStack : Prop :=
  decode 0x00EE = .ok .ret ∧
  ∀ s : State, (∀ h : 0 < s.sp.val, ∃ t, exec .ret s = .next t ∧ t.pc = s.stack[s.sp.val - 1] ∧ t.sp.val = s.sp.val - 1 ∧
      (∀ r, t.reg r = s.reg r) ∧ MemoryKept s t ∧ t = { s with pc := t.pc, sp := t.sp }) ∧
    (s.sp.val = 0 → FaultsOutOfBounds .ret s .stack 0)

/-- 41_flow.md R101, R103: JP sets PC to the zero-extended NNN; JP V0 sets PC to NNN + V0, always V0, unmasked; neither writes anything
else, a flag among it. -/
def Obligations.JumpsSetPc : Prop :=
  ∀ (nnn : Addr12) (s : State), decode (encodeA 0x1000 nnn) = .ok (.jp nnn) ∧ decode (encodeA 0xB000 nnn) = .ok (.jpV0 nnn) ∧
    (∃ t, exec (.jp nnn) s = .next t ∧ t.pc.toNat = nnn.toNat ∧ OnlyPc s t) ∧
    (∃ t, exec (.jpV0 nnn) s = .next t ∧ t.pc.toNat = nnn.toNat + (s.reg 0).toNat ∧ OnlyPc s t)

/-- 41_flow.md R102, with decision D1 for the full stack: CALL pushes PC as it stands (the next sequential instruction) and jumps; the
entries of the stack but the one at the old SP stay. -/
def Obligations.CallPushesPcAndJumps : Prop :=
  ∀ (nnn : Addr12) (s : State), decode (encodeA 0x2000 nnn) = .ok (.call nnn) ∧
    (∀ h : s.sp.val < 16, ∃ t, exec (.call nnn) s = .next t ∧ t.stack[s.sp.val] = s.pc ∧ t.sp.val = s.sp.val + 1 ∧
      t.pc.toNat = nnn.toNat ∧ (∀ k : Fin 16, k.val ≠ s.sp.val → t.stack[k.val] = s.stack[k.val]) ∧
      (∀ r, t.reg r = s.reg r) ∧ MemoryKept s t ∧ t = { s with pc := t.pc, sp := t.sp, stack := t.stack }) ∧
    (s.sp.val = 16 → FaultsOutOfBounds (.call nnn) s .stack 16)

/-- 41_flow.md R100, R102 (document property S7): CALL and then RET restores SP, and PC to the instruction after the CALL; whatever
ran in between, here nothing, and all else but the stale stack entry, the one at the old SP, is as before. -/
def Obligations.CallThenRetReturns : Prop :=
  ∀ (nnn : Addr12) (s : State), s.sp.val < 16 →
    ∃ t u, exec (.call nnn) s = .next t ∧ exec .ret t = .next u ∧
      (∀ k : Fin 16, k.val ≠ s.sp.val → u.stack[k.val] = s.stack[k.val]) ∧ u = { s with stack := u.stack }

/-! ### Skips -/

/-- 42_skip.md R110, R111: SE and SNE with an immediate advance PC by 2 more exactly when V[X] equals, or differs from, NN. -/
def Obligations.ImmediateSkipsCompareTheRegister : Prop :=
  ∀ (x : Nibble) (nn : Byte) (s : State),
    decode (encodeXB 0x3000 x nn) = .ok (.seImm x nn) ∧ decode (encodeXB 0x4000 x nn) = .ok (.sneImm x nn) ∧
    (∃ t, exec (.seImm x nn) s = .next t ∧ (s.reg x = nn → t.pc = s.pc + 2) ∧ (s.reg x ≠ nn → t.pc = s.pc) ∧ OnlyPc s t) ∧
    (∃ t, exec (.sneImm x nn) s = .next t ∧ (s.reg x ≠ nn → t.pc = s.pc + 2) ∧ (s.reg x = nn → t.pc = s.pc) ∧ OnlyPc s t)

/-- 42_skip.md R112, R113: SE and SNE with two registers advance PC by 2 more exactly when V[X] equals, or differs from, V[Y]. That words
with N other than 0 do not decode is decision D2. -/
def Obligations.RegisterSkipsCompareTwoRegisters : Prop :=
  ∀ (x y : Nibble) (s : State),
    decode (encodeXYN 0x5000 x y 0) = .ok (.seReg x y) ∧ decode (encodeXYN 0x9000 x y 0) = .ok (.sneReg x y) ∧
    (∀ n : Nibble, n ≠ 0 → decode (encodeXYN 0x5000 x y n) = .error (.unknownOpcode (encodeXYN 0x5000 x y n)) ∧
      decode (encodeXYN 0x9000 x y n) = .error (.unknownOpcode (encodeXYN 0x9000 x y n))) ∧
    (∃ t, exec (.seReg x y) s = .next t ∧ (s.reg x = s.reg y → t.pc = s.pc + 2) ∧ (s.reg x ≠ s.reg y → t.pc = s.pc) ∧
      OnlyPc s t) ∧
    (∃ t, exec (.sneReg x y) s = .next t ∧ (s.reg x ≠ s.reg y → t.pc = s.pc + 2) ∧ (s.reg x = s.reg y → t.pc = s.pc) ∧
      OnlyPc s t)

/-- 45_keypad_timers.md R150, R151, with decision D8 for an index above 0xF: SKP and SKNP advance PC by 2 more exactly when the key whose
index is the value of V[X] is down, or up. -/
def Obligations.KeySkipsReadTheKeypad : Prop :=
  ∀ (x : Nibble) (s : State),
    decode (encodeXB 0xE000 x 0x9E) = .ok (.skp x) ∧ decode (encodeXB 0xE000 x 0xA1) = .ok (.sknp x) ∧
    (∀ h : (s.reg x).toNat < 16,
      (∃ t, exec (.skp x) s = .next t ∧ t.pc = (if s.keys[(s.reg x).toNat] = true then s.pc + 2 else s.pc) ∧ OnlyPc s t) ∧
      (∃ t, exec (.sknp x) s = .next t ∧ t.pc = (if s.keys[(s.reg x).toNat] = true then s.pc else s.pc + 2) ∧ OnlyPc s t)) ∧
    (0xF < (s.reg x).toNat → FaultsOutOfBounds (.skp x) s .key (s.reg x).toNat ∧
      FaultsOutOfBounds (.sknp x) s .key (s.reg x).toNat)

/-! ### Register load, arithmetic, logic, shift, random -/

/-- 43_alu.md R120: LD VX, NN stores NN exactly and changes nothing else, VF among it unless it is VX. -/
def Obligations.LoadImmediateStoresTheByte : Prop :=
  ∀ (x : Nibble) (nn : Byte) (s : State), decode (encodeXB 0x6000 x nn) = .ok (.ldImm x nn) ∧
    ∃ t, exec (.ldImm x nn) s = .next t ∧ t.reg x = nn ∧ OnlyRegisters (· = x) s t

/-- 43_alu.md R121: ADD VX, NN adds modulo 256 and writes no flag. -/
def Obligations.AddImmediateWrapsWithoutAFlag : Prop :=
  ∀ (x : Nibble) (nn : Byte) (s : State), decode (encodeXB 0x7000 x nn) = .ok (.addImm x nn) ∧
    ∃ t, exec (.addImm x nn) s = .next t ∧ (t.reg x).toNat = ((s.reg x).toNat + nn.toNat) % 256 ∧ OnlyRegisters (· = x) s t

/-- 43_alu.md R122 to R125: copy, OR, AND and XOR write V[X] only; no flag. -/
def Obligations.CopyAndLogicWriteTheFirstRegister : Prop :=
  ∀ (x y : Nibble) (s : State),
    decode (encodeXYN 0x8000 x y 0x0) = .ok (.ldReg x y) ∧ decode (encodeXYN 0x8000 x y 0x1) = .ok (.orReg x y) ∧
    decode (encodeXYN 0x8000 x y 0x2) = .ok (.andReg x y) ∧ decode (encodeXYN 0x8000 x y 0x3) = .ok (.xorReg x y) ∧
    (∃ t, exec (.ldReg x y) s = .next t ∧ t.reg x = s.reg y ∧ OnlyRegisters (· = x) s t) ∧
    (∃ t, exec (.orReg x y) s = .next t ∧ (∀ k, (t.reg x).getLsbD k = ((s.reg x).getLsbD k || (s.reg y).getLsbD k)) ∧
      OnlyRegisters (· = x) s t) ∧
    (∃ t, exec (.andReg x y) s = .next t ∧ (∀ k, (t.reg x).getLsbD k = ((s.reg x).getLsbD k && (s.reg y).getLsbD k)) ∧
      OnlyRegisters (· = x) s t) ∧
    (∃ t, exec (.xorReg x y) s = .next t ∧ (∀ k, (t.reg x).getLsbD k = ((s.reg x).getLsbD k ^^ (s.reg y).getLsbD k)) ∧
      OnlyRegisters (· = x) s t)

/-- 43_alu.md R126: ADD VX, VY keeps the sum modulo 256 and sets VF to 1 if the unmasked sum exceeds 0xFF, else to 0; with X = 0xF
VF ends as the flag. -/
def Obligations.AddRegistersSetsTheCarry : Prop :=
  ∀ (x y : Nibble) (s : State), decode (encodeXYN 0x8000 x y 0x4) = .ok (.addReg x y) ∧
    ∃ t, exec (.addReg x y) s = .next t ∧
      (x ≠ vf → (t.reg x).toNat = ((s.reg x).toNat + (s.reg y).toNat) % 256) ∧
      t.reg vf = (if (s.reg x).toNat + (s.reg y).toNat > 0xFF then 1 else 0) ∧ OnlyRegisters (fun r => r = x ∨ r = vf) s t

/-- 43_alu.md R127, with decision D3 where X or Y is 0xF: SUB keeps the difference modulo 256 and sets VF to 1 if V[X] was strictly
greater, else to 0. -/
def Obligations.SubtractSetsTheGreaterFlag : Prop :=
  ∀ (x y : Nibble) (s : State), decode (encodeXYN 0x8000 x y 0x5) = .ok (.subReg x y) ∧
    ∃ t, exec (.subReg x y) s = .next t ∧
      (x ≠ vf → (t.reg x).toNat = ((s.reg x).toNat + 256 - (s.reg y).toNat) % 256) ∧
      t.reg vf = (if (s.reg y).toNat < (s.reg x).toNat then 1 else 0) ∧ OnlyRegisters (fun r => r = x ∨ r = vf) s t

/-- 43_alu.md R128, R129, with decision D3 where X is 0xF: SHR and SHL shift V[X] by one, VF gets the bit shifted out, and no value of Y
matters. -/
def Obligations.ShiftsMoveTheLostBitToVf : Prop :=
  ∀ (x y : Nibble) (s : State),
    decode (encodeXYN 0x8000 x y 0x6) = .ok (.shr x y) ∧ decode (encodeXYN 0x8000 x y 0xE) = .ok (.shl x y) ∧
    (∃ t, exec (.shr x y) s = .next t ∧ (x ≠ vf → (t.reg x).toNat = (s.reg x).toNat / 2) ∧
      (t.reg vf).toNat = (s.reg x).toNat % 2 ∧ OnlyRegisters (fun r => r = x ∨ r = vf) s t) ∧
    (∃ t, exec (.shl x y) s = .next t ∧ (x ≠ vf → (t.reg x).toNat = (s.reg x).toNat * 2 % 256) ∧
      (t.reg vf).toNat = (s.reg x).toNat / 128 ∧ OnlyRegisters (fun r => r = x ∨ r = vf) s t)

/-- 43_alu.md R130, R133 (decision D15, assumption 6): RND draws one fresh free byte and keeps the bits NN has; whatever the byte, no
other bit is set, and mask 0 gives 0. -/
def Obligations.RandomByteIsMasked : Prop :=
  ∀ (x : Nibble) (nn : Byte) (s : State), decode (encodeXB 0xC000 x nn) = .ok (.rnd x nn) ∧
    ∃ t, exec (.rnd x nn) s = .next t ∧ t.reg x = Config.rnd s.draws &&& nn ∧ t.reg x &&& ~~~nn = 0 ∧
      (nn = 0 → t.reg x = 0) ∧ t.draws = s.draws + 1 ∧ OnlyRegisters (· = x) s { t with draws := s.draws }

/-! ### Index register and memory -/

/-- 44_index_memory.md R140, R141, R142: LD I, ADD I (modulo 65536, no flag) and LD F (times 5, exact) write I only. -/
def Obligations.IndexInstructionsWriteI : Prop :=
  ∀ (nnn : Addr12) (x : Nibble) (s : State),
    decode (encodeA 0xA000 nnn) = .ok (.ldI nnn) ∧ decode (encodeXB 0xF000 x 0x1E) = .ok (.addI x) ∧
    decode (encodeXB 0xF000 x 0x29) = .ok (.ldF x) ∧
    (∃ t, exec (.ldI nnn) s = .next t ∧ t.i.toNat = nnn.toNat ∧ OnlyIndex s t) ∧
    (∃ t, exec (.addI x) s = .next t ∧ t.i.toNat = (s.i.toNat + (s.reg x).toNat) % 65536 ∧ OnlyIndex s t) ∧
    (∃ t, exec (.ldF x) s = .next t ∧ t.i.toNat = (s.reg x).toNat * 5 ∧ OnlyIndex s t)

/-- 44_index_memory.md R143, with decisions D1 and D7 for the fault: LD B stores the decimal digits of V[X] at I, I+1, I+2 and nothing
else; I is unchanged. -/
def Obligations.DecimalDigitsAreStored : Prop :=
  ∀ (x : Nibble) (s : State), decode (encodeXB 0xF000 x 0x33) = .ok (.ldB x) ∧
    (s.i.toNat + 2 ≤ 0xFFF → ∃ t, exec (.ldB x) s = .next t ∧
      (t.memRead s.i.toNat).toNat = (s.reg x).toNat / 100 ∧
      (t.memRead (s.i.toNat + 1)).toNat = (s.reg x).toNat / 10 % 10 ∧
      (t.memRead (s.i.toNat + 2)).toNat = (s.reg x).toNat % 10 ∧ OnlyMemory s.i.toNat 3 s t) ∧
    (0xFFF < s.i.toNat + 2 → FaultsOutOfBounds (.ldB x) s .mem (max s.i.toNat 0x1000))

/-- 44_index_memory.md R144, with decisions D1, D7 for the fault and D11 for I: LD [I], VX stores V0 to VX from I upward and nothing
else. -/
def Obligations.RegistersAreStoredFromI : Prop :=
  ∀ (x : Nibble) (s : State), decode (encodeXB 0xF000 x 0x55) = .ok (.storeRegs x) ∧
    (s.i.toNat + x.toNat ≤ 0xFFF → ∃ t, exec (.storeRegs x) s = .next t ∧
      (∀ r : Nibble, r ≤ x → t.memRead (s.i.toNat + r.toNat) = s.reg r) ∧ OnlyMemory s.i.toNat (x.toNat + 1) s t) ∧
    (0xFFF < s.i.toNat + x.toNat → FaultsOutOfBounds (.storeRegs x) s .mem (max s.i.toNat 0x1000))

/-- 44_index_memory.md R145, with decisions D1, D7 for the fault and D11 for I: LD VX, [I] loads V0 to VX from I upward; registers above
X keep their values. -/
def Obligations.RegistersAreLoadedFromI : Prop :=
  ∀ (x : Nibble) (s : State), decode (encodeXB 0xF000 x 0x65) = .ok (.loadRegs x) ∧
    (s.i.toNat + x.toNat ≤ 0xFFF → ∃ t, exec (.loadRegs x) s = .next t ∧
      (∀ r : Nibble, r ≤ x → t.reg r = s.memRead (s.i.toNat + r.toNat)) ∧ OnlyRegisters (· ≤ x) s t) ∧
    (0xFFF < s.i.toNat + x.toNat → FaultsOutOfBounds (.loadRegs x) s .mem (max s.i.toNat 0x1000))

/-- 44_index_memory.md R145 (corner case): a store of V0 to VX followed, whatever the registers hold by then, by a load with the same
memory, I and X restores the registers saved, and the registers above X keep the values they hold by then. The load runs at the I the
store left, so it rests on the spec's own decision D11 (I unchanged by FX55; assumption 23). -/
def Obligations.LoadRestoresTheStoredRegisters : Prop :=
  ∀ (x : Nibble) (s t u w : State), s.i.toNat + x.toNat ≤ 0xFFF → exec (.storeRegs x) s = .next t → u.mem = t.mem → u.i = t.i →
    exec (.loadRegs x) u = .next w →
    (∀ r : Nibble, r ≤ x → w.reg r = s.reg r) ∧ ∀ r : Nibble, ¬ r ≤ x → w.reg r = u.reg r

/-- 20_memory.md R62 (with decision D1 for the bound of the store): a store is seen by the very next fetch. After FX55 with any X, and
after FX33, wherever I points, each of the two bytes fetched at PC is the byte just stored there, or, where the store did not reach
it, the byte memory held. -/
def Obligations.StoredBytesAreFetchedNext : Prop :=
  ∀ (x : Nibble) (s : State),
    (s.i.toNat + x.toNat ≤ 0xFFF → ∃ t, exec (.storeRegs x) s = .next t ∧ t.pc = s.pc ∧
      ∃ hi lo : Byte, t.fetchWord = hi ++ lo ∧
        (∀ r : Nibble, r ≤ x → (s.pc.toNat = s.i.toNat + r.toNat → hi = s.reg r) ∧
          (s.pc.toNat + 1 = s.i.toNat + r.toNat → lo = s.reg r)) ∧
        ((∀ r : Nibble, r ≤ x → s.pc.toNat ≠ s.i.toNat + r.toNat) → hi = s.memRead s.pc.toNat) ∧
        ((∀ r : Nibble, r ≤ x → s.pc.toNat + 1 ≠ s.i.toNat + r.toNat) → lo = s.memRead (s.pc.toNat + 1))) ∧
    (s.i.toNat + 2 ≤ 0xFFF → ∃ t, exec (.ldB x) s = .next t ∧ t.pc = s.pc ∧
      ∃ hi lo : Byte, t.fetchWord = hi ++ lo ∧
        (∀ k < 3, (s.pc.toNat = s.i.toNat + k → hi.toNat = (s.reg x).toNat / 10 ^ (2 - k) % 10) ∧
          (s.pc.toNat + 1 = s.i.toNat + k → lo.toNat = (s.reg x).toNat / 10 ^ (2 - k) % 10)) ∧
        ((∀ k < 3, s.pc.toNat ≠ s.i.toNat + k) → hi = s.memRead s.pc.toNat) ∧
        ((∀ k < 3, s.pc.toNat + 1 ≠ s.i.toNat + k) → lo = s.memRead (s.pc.toNat + 1)))

/-! ### Timers and the key wait -/

/-- 45_keypad_timers.md R152, R154, R155: the timer instructions copy DT into V[X] and V[X] into DT or ST; TONE is not written. -/
def Obligations.TimerInstructionsCopy : Prop :=
  ∀ (x : Nibble) (s : State),
    decode (encodeXB 0xF000 x 0x07) = .ok (.ldVxDt x) ∧ decode (encodeXB 0xF000 x 0x15) = .ok (.ldDtVx x) ∧
    decode (encodeXB 0xF000 x 0x18) = .ok (.ldStVx x) ∧
    (∃ t, exec (.ldVxDt x) s = .next t ∧ t.reg x = s.dt ∧ OnlyRegisters (· = x) s t) ∧
    (∃ t, exec (.ldDtVx x) s = .next t ∧ t.dt = s.reg x ∧ (∀ r, t.reg r = s.reg r) ∧ MemoryKept s t ∧
      t = { s with dt := t.dt }) ∧
    (∃ t, exec (.ldStVx x) s = .next t ∧ t.st = s.reg x ∧ (∀ r, t.reg r = s.reg r) ∧ MemoryKept s t ∧
      t = { s with st := t.st })

/-- 45_keypad_timers.md R153; 60_exceptions.md R172: the cycle of FX0A records X and opens the wait; V[X] is not written in it. While the
gate is AwaitingKey no CPU cycle runs (10_state.md R34): a cycle that comes up is dropped and nothing else changes, the dropping being
the model's choice (assumption 9). -/
def Obligations.KeyWaitOpensTheGate : Prop :=
  (∀ (x : Nibble) (s : State), decode (encodeXB 0xF000 x 0x0A) = .ok (.ldVxK x) ∧
    ∃ t, exec (.ldVxK x) s = .next t ∧ t.waitx = x ∧ t.gate = .awaitingKey ∧ (∀ r, t.reg r = s.reg r) ∧ MemoryKept s t ∧
      t = { s with waitx := t.waitx, gate := t.gate }) ∧
  ∀ s : State, s.gate = .awaitingKey → s.nextEvent = .cycle → step s = .next s.takeEvent

/-- 60_exceptions.md R175: the tick requests the tone and decrements ST while it is above 0, else silences it, and decrements DT while
it is above 0; it touches nothing else. It occurs at a yield point while the timer loop is active (R170). -/
def Obligations.TickRunsTheTimersDown : Prop :=
  ∀ s : State, s.nextEvent = .tick → s.runTmr = true → s.atYield = true →
    ∃ t, step s = .next t ∧ (t.tone = true ↔ 0 < s.st.toNat) ∧ t.st.toNat = s.st.toNat - 1 ∧ t.dt.toNat = s.dt.toNat - 1 ∧
      t = { s.takeEvent with tone := t.tone, st := t.st, dt := t.dt }

/-! ### Key events and the lifecycle -/

/-- 60_exceptions.md R177, R178 (decision D23): a legal key_down at a yield point sets the key, and ends a wait by writing the index into
V[WAITX] and opening the gate; without a wait nothing else changes. -/
def Obligations.KeyDownSetsTheKeyAndEndsAWait : Prop :=
  ∀ (s : State) (k : Nat), s.nextEvent = .keyDown k → s.life ≠ .stopped → s.atYield = true → k ≤ 15 →
    ∃ t, step s = .next t ∧ (∀ j : Fin 16, t.keys[j.val] = if j.val = k then true else s.keys[j.val]) ∧
      (s.gate = .awaitingKey → (t.reg s.waitx).toNat = k ∧ t.gate = .running ∧ (∀ r, r ≠ s.waitx → t.reg r = s.reg r) ∧
        t = { s.takeEvent with keys := t.keys, v := t.v, gate := t.gate }) ∧
      (s.gate = .running → t = { s.takeEvent with keys := t.keys })

/-- 60_exceptions.md R179: at a yield point a key_up with an index above 15 has no effect; any other clears the key and nothing else,
and never ends a key wait. -/
def Obligations.KeyUpClearsTheKeyOnly : Prop :=
  ∀ (s : State) (k : Nat), s.nextEvent = .keyUp k → s.life ≠ .stopped → s.atYield = true →
    (15 < k → step s = .next s.takeEvent) ∧
    (k ≤ 15 → ∃ t, step s = .next t ∧ (∀ j : Fin 16, t.keys[j.val] = if j.val = k then false else s.keys[j.val]) ∧
      t.gate = s.gate ∧ t = { s.takeEvent with keys := t.keys })

/-- 60_exceptions.md R163: a key event with an index outside 0 to 15 changes no state, does not halt the CPU, writes no FAULT and leaves
a pending wait pending. -/
def Obligations.InvalidKeyIndexIsRejected : Prop :=
  ∀ (s : State) (k : Nat), s.nextEvent = .keyDown k ∨ s.nextEvent = .keyUp k → s.atYield = true → 15 < k →
    step s = .next s.takeEvent

/-- 60_exceptions.md R173, R174 (decision D16; that the event waits is assumption 8): inside a batch a tick, a key event or a stop does
not happen; the CPU loop goes on with the batch and the event stays next on the agenda. -/
def Obligations.InsideABatchOnlyCyclesRun : Prop :=
  ∀ (s : State) (k : Nat), s.bc ≠ 0 → s.gate = .running → s.runCpu = true → s.life = .active → s.runTmr = true →
    (s.nextEvent = .tick ∨ s.nextEvent = .stop ∨ s.nextEvent = .keyDown k ∨ s.nextEvent = .keyUp k) →
    step s = cpuCycle s ∧ ∀ t, step s = .next t → t.agenda = s.agenda ∧ t.eventCount = s.eventCount

/-- 70_reset_and_hazards.md R191, 20_memory.md R52 (Idle only by decision D17; FONT by assumption 5): load writes the font at 0x000 and the
program at 0x200, for every FONT, and nothing else; a program longer than 3584 bytes is rejected with its length and nothing is
written. -/
def Obligations.LoadWritesFontAndProgram : Prop :=
  ∀ (s : State) (bytes : List Byte), s.nextEvent = .load bytes → s.life = .idle →
    (∀ h : bytes.length ≤ 3584, ∃ t, step s = .next t ∧ (∀ n < 80, t.memRead n = Config.font n) ∧
      (∀ n, ∀ hn : n < bytes.length, t.memRead (0x200 + n) = bytes[n]) ∧
      (∀ a, 80 ≤ a → (a < 0x200 ∨ 0x200 + bytes.length ≤ a) → t.memRead a = s.memRead a) ∧
      t = { s.takeEvent with mem := t.mem, rejected := none }) ∧
    (3584 < bytes.length → step s = .next { s.takeEvent with rejected := some (.load, bytes.length) })

/-- 70_reset_and_hazards.md R193, R194, R195 (Idle only, and the refusals, by decision D17): start sets LIFE and both running flags; stop
at a yield point clears both and stops LIFE; nothing else changes, TONE, GATE and FAULT among it; load and start outside Idle and
a second stop are refused. -/
def Obligations.StartAndStopSetTheRunningFlags : Prop :=
  ∀ s : State,
    (s.nextEvent = .start → s.life = .idle →
      step s = .next { s.takeEvent with life := .active, runCpu := true, runTmr := true }) ∧
    (s.nextEvent = .start → s.life ≠ .idle → step s = .refused .startOutsideIdle) ∧
    (∀ bytes, s.nextEvent = .load bytes → s.life ≠ .idle → step s = .refused .loadOutsideIdle) ∧
    (s.nextEvent = .stop → s.life ≠ .stopped → s.atYield = true →
      step s = .next { s.takeEvent with life := .stopped, runCpu := false, runTmr := false }) ∧
    (s.nextEvent = .stop → s.life = .stopped → step s = .refused .stopAfterStop)

/-- 70_reset_and_hazards.md R195: in Stopped no event but reset changes anything of the machine. -/
def Obligations.StoppedMachineIsFrozen : Prop :=
  ∀ s t : State, s.life = .stopped → s.runCpu = false → s.runTmr = false → s.nextEvent ≠ .reset → step s = .next t → t = s.takeEvent

/-- 60_exceptions.md R165, R168: after a fault no CPU cycle runs. FAULT keeps its record, and the registers, PC, I, SP, the stack,
memory, the framebuffer and BC keep their values, at every step but a reset. The premise is the invariant of
StepKeepsControlConsistent. -/
def Obligations.HaltedCoreExecutesNothing : Prop :=
  ∀ (s t : State) (r : FaultRecord), s.ControlConsistent → s.fault = some r → s.nextEvent ≠ .reset → step s = .next t →
    t.fault = some r ∧ t.runCpu = false ∧ t.v = s.v ∧ t.pc = s.pc ∧ t.i = s.i ∧ t.sp = s.sp ∧ t.stack = s.stack ∧ t.mem = s.mem ∧
    t.fb = s.fb ∧ t.bc = s.bc

/-- 70_reset_and_hazards.md R190, 10_state.md R42: reset is always enabled and puts every piece of state of the machine at its reset
value, whatever it held; only the inputs still to come stay (assumption 7). -/
def Obligations.ResetReconstructsTheMachine : Prop :=
  ∀ s : State, s.nextEvent = .reset → step s = .next { State.reset with
    agenda := s.takeEvent.agenda, eventCount := s.takeEvent.eventCount, draws := s.draws }

/-- 10_state.md R42: PC is 0x200 after reset, which the document states. The other values are the spec's own choice (decisions D9,
D19), and the zeros of STACK, WAITX and MEM[0x000..0x04F] the model's (assumptions 2, 3, 4). -/
def Obligations.ResetValues : Prop :=
  State.reset.pc = 0x200 ∧ (∀ r, State.reset.reg r = 0) ∧ State.reset.i = 0 ∧ State.reset.sp.val = 0 ∧
  (∀ k : Fin 16, State.reset.stack[k.val] = 0) ∧ State.reset.waitx = 0 ∧ State.reset.dt = 0 ∧
  State.reset.st = 0 ∧ (∀ a, State.reset.memRead a = 0) ∧ (∀ p, State.reset.fb.getLsbD p = false) ∧
  (∀ k : Fin 16, State.reset.keys[k.val] = false) ∧ State.reset.life = .idle ∧ State.reset.runCpu = false ∧
  State.reset.runTmr = false ∧ State.reset.gate = .running ∧ State.reset.bc.val = 0 ∧ State.reset.tone = false ∧
  State.reset.fault = none

/-- 70_reset_and_hazards.md R196 (a jump to itself; the idiom is general knowledge, decision D22): at the recommended end of a run every
further cycle changes nothing but BC and the output `dirty`. -/
def Obligations.SelfJumpChangesOnlyTheBatchCount : Prop :=
  ∀ s : State, s.AtEnd → s.runCpu = true → cpuCycle s = .next { s with bc := s.bc + 1, dirty := false }

/-! ### Who writes what -/

/-- 10_state.md R22, R24 to R29 (table R43): an instruction other than those named leaves I, SP and the stack, DT and ST, memory and
the framebuffer alone. That FX55 and FX65 leave I alone is the spec's own decision D11 (assumption 23). -/
def Obligations.WritersOfTheSpecialRegistersAndMemories : Prop :=
  ∀ (i : Instr) (s t : State), exec i s = .next t →
    (t.i ≠ s.i → (∃ nnn, i = .ldI nnn) ∨ (∃ x, i = .addI x) ∨ ∃ x, i = .ldF x) ∧
    (t.sp ≠ s.sp → i = .ret ∨ ∃ nnn, i = .call nnn) ∧ (t.stack ≠ s.stack → ∃ nnn, i = .call nnn) ∧
    (t.dt ≠ s.dt → ∃ x, i = .ldDtVx x) ∧ (t.st ≠ s.st → ∃ x, i = .ldStVx x) ∧
    (t.draws ≠ s.draws → ∃ x nn, i = .rnd x nn) ∧
    (t.mem ≠ s.mem → (∃ x, i = .ldB x) ∨ ∃ x, i = .storeRegs x) ∧ (t.fb ≠ s.fb → i = .cls ∨ ∃ x y n, i = .drw x y n)

/-- 10_state.md R21 (table R43): VF changes only by the five flag-writing instructions, which leave 0 or 1 in it, and by an instruction
that names it as its destination, or loads it with FX65 and X = 0xF. That the flag is what stays where X is 0xF is, for SUB, SHR and
SHL, the spec's own decision D3 (00_scope.md R9; assumption 17). -/
def Obligations.WritersOfTheFlagRegister : Prop :=
  ∀ (i : Instr) (s t : State), exec i s = .next t → t.reg vf ≠ s.reg vf →
    (((∃ x y, i = .addReg x y ∨ i = .subReg x y ∨ i = .shr x y ∨ i = .shl x y) ∨ ∃ x y n, i = .drw x y n) ∧
      (t.reg vf = 0 ∨ t.reg vf = 1)) ∨
    (∃ nn, i = .ldImm vf nn ∨ i = .addImm vf nn ∨ i = .rnd vf nn) ∨
    (∃ y, i = .ldReg vf y ∨ i = .orReg vf y ∨ i = .andReg vf y ∨ i = .xorReg vf y) ∨
    i = .ldVxDt vf ∨ i = .loadRegs vf

/-- 10_state.md R30, R31, R33, R35 to R37 (table R43): no instruction writes the keypad, LIFE, RUN_TMR, BC, TONE or the model's outputs and
agenda; only FX0A opens the gate or writes WAITX, and RUN_CPU is only ever cleared, together with a fault on record. -/
def Obligations.NoInstructionReachesTheOutside : Prop :=
  ∀ (i : Instr) (s t : State), exec i s = .next t →
    t.keys = s.keys ∧ t.life = s.life ∧ t.runTmr = s.runTmr ∧ t.bc = s.bc ∧ t.tone = s.tone ∧ t.shown = s.shown ∧
    t.rejected = s.rejected ∧ t.agenda = s.agenda ∧ t.eventCount = s.eventCount ∧
    (t.gate ≠ s.gate ∨ t.waitx ≠ s.waitx → ∃ x, i = .ldVxK x) ∧
    (t.runCpu ≠ s.runCpu → t.runCpu = false ∧ t.fault ≠ none) ∧ (t.fault ≠ s.fault → s.fault = none ∧ t.runCpu = false)

/-! ### Invariants -/

/-- 10_state.md R28, 20_memory.md R50: every step, of every kind, keeps memory in its canonical form, every listed address below
4096. -/
def Obligations.StepKeepsMemoryCanonical : Prop :=
  ∀ s t : State, Memory.wf s.mem → step s = .next t → Memory.wf t.mem

/-- 10_state.md R44, R23: every step keeps PC at most 0x10FE and every return address in use at most 0x1000. -/
def Obligations.StepKeepsPcBounded : Prop := ∀ s t : State, s.PcBounded → step s = .next t → t.PcBounded

/-- 10_state.md R31 to R34, R38, R44: every step keeps LIFE, the running flags, the gate and FAULT consistent; so a recorded fault always
means a halted CPU. -/
def Obligations.StepKeepsControlConsistent : Prop :=
  ∀ s t : State, s.ControlConsistent → step s = .next t → t.ControlConsistent

/-- 10_state.md R42, R44: the three invariants hold after reset. -/
def Obligations.ResetMeetsTheInvariants : Prop :=
  Memory.wf State.reset.mem ∧ State.reset.PcBounded ∧ State.reset.ControlConsistent

/-- 60_exceptions.md R165, R170; 70_reset_and_hazards.md R195: no instruction, fault or event stops the machine. A step answers a next
state unless the host calls for load or start outside Idle, or for stop in Stopped, which decision D17 has a model refuse. That a
step also answers a next state where the event is not enabled is the model's own choice: a cycle or tick of a loop that does not run
or waits for a key, and a key event in Stopped, are dropped (assumption 9; 93_implementation_defined.md U10 would let a model refuse
those after stop), and inside a batch another agent's event waits while a cycle runs (assumption 8). A fault is a next state by
assumption 13. -/
def Obligations.OnlyLifecycleMisuseIsRefused : Prop :=
  ∀ s : State, (∃ t, step s = .next t) ∨
    (s.life ≠ .idle ∧ (s.nextEvent = .start ∨ ∃ bytes, s.nextEvent = .load bytes)) ∨
    (s.life = .stopped ∧ s.nextEvent = .stop)
end

