-- ==== Sys2Proof/Laws/State.lean ====
section
/-! SUPPORT. One lemma per field per state update (Machine/Ops.lean, Cycle.lean, Events.lean, Schedule.lean), each true by unfolding, so
that no later proof unfolds a record update; then the same for the reads of registers and memory. -/

namespace Sys2Proof.Machine

/-! ### setReg -/

@[simp] theorem State.setReg_v (s : State) (x : Nibble) (b : Byte) : (s.setReg x b).v = s.v.set x.toNat b x.isLt := rfl
@[simp] theorem State.setReg_i (s : State) (x : Nibble) (b : Byte) : (s.setReg x b).i = s.i := rfl
@[simp] theorem State.setReg_pc (s : State) (x : Nibble) (b : Byte) : (s.setReg x b).pc = s.pc := rfl
@[simp] theorem State.setReg_sp (s : State) (x : Nibble) (b : Byte) : (s.setReg x b).sp = s.sp := rfl
@[simp] theorem State.setReg_stack (s : State) (x : Nibble) (b : Byte) : (s.setReg x b).stack = s.stack := rfl
@[simp] theorem State.setReg_dt (s : State) (x : Nibble) (b : Byte) : (s.setReg x b).dt = s.dt := rfl
@[simp] theorem State.setReg_st (s : State) (x : Nibble) (b : Byte) : (s.setReg x b).st = s.st := rfl
@[simp] theorem State.setReg_mem (s : State) (x : Nibble) (b : Byte) : (s.setReg x b).mem = s.mem := rfl
@[simp] theorem State.setReg_fb (s : State) (x : Nibble) (b : Byte) : (s.setReg x b).fb = s.fb := rfl
@[simp] theorem State.setReg_keys (s : State) (x : Nibble) (b : Byte) : (s.setReg x b).keys = s.keys := rfl
@[simp] theorem State.setReg_life (s : State) (x : Nibble) (b : Byte) : (s.setReg x b).life = s.life := rfl
@[simp] theorem State.setReg_runCpu (s : State) (x : Nibble) (b : Byte) : (s.setReg x b).runCpu = s.runCpu := rfl
@[simp] theorem State.setReg_runTmr (s : State) (x : Nibble) (b : Byte) : (s.setReg x b).runTmr = s.runTmr := rfl
@[simp] theorem State.setReg_gate (s : State) (x : Nibble) (b : Byte) : (s.setReg x b).gate = s.gate := rfl
@[simp] theorem State.setReg_waitx (s : State) (x : Nibble) (b : Byte) : (s.setReg x b).waitx = s.waitx := rfl
@[simp] theorem State.setReg_bc (s : State) (x : Nibble) (b : Byte) : (s.setReg x b).bc = s.bc := rfl
@[simp] theorem State.setReg_tone (s : State) (x : Nibble) (b : Byte) : (s.setReg x b).tone = s.tone := rfl
@[simp] theorem State.setReg_fault (s : State) (x : Nibble) (b : Byte) : (s.setReg x b).fault = s.fault := rfl
@[simp] theorem State.setReg_dirty (s : State) (x : Nibble) (b : Byte) : (s.setReg x b).dirty = s.dirty := rfl
@[simp] theorem State.setReg_shown (s : State) (x : Nibble) (b : Byte) : (s.setReg x b).shown = s.shown := rfl
@[simp] theorem State.setReg_rejected (s : State) (x : Nibble) (b : Byte) : (s.setReg x b).rejected = s.rejected := rfl
@[simp] theorem State.setReg_agenda (s : State) (x : Nibble) (b : Byte) : (s.setReg x b).agenda = s.agenda := rfl
@[simp] theorem State.setReg_eventCount (s : State) (x : Nibble) (b : Byte) : (s.setReg x b).eventCount = s.eventCount := rfl
@[simp] theorem State.setReg_draws (s : State) (x : Nibble) (b : Byte) : (s.setReg x b).draws = s.draws := rfl
@[simp] theorem State.setReg_memRead (s : State) (x : Nibble) (b : Byte) (a : Nat) : (s.setReg x b).memRead a = s.memRead a := rfl

/-! ### setRegFlag -/

@[simp] theorem State.setRegFlag_v (s : State) (x : Nibble) (b c : Byte) : (s.setRegFlag x b c).v = (s.v.set x.toNat b x.isLt).set 15 c := rfl
@[simp] theorem State.setRegFlag_i (s : State) (x : Nibble) (b c : Byte) : (s.setRegFlag x b c).i = s.i := rfl
@[simp] theorem State.setRegFlag_pc (s : State) (x : Nibble) (b c : Byte) : (s.setRegFlag x b c).pc = s.pc := rfl
@[simp] theorem State.setRegFlag_sp (s : State) (x : Nibble) (b c : Byte) : (s.setRegFlag x b c).sp = s.sp := rfl
@[simp] theorem State.setRegFlag_stack (s : State) (x : Nibble) (b c : Byte) : (s.setRegFlag x b c).stack = s.stack := rfl
@[simp] theorem State.setRegFlag_dt (s : State) (x : Nibble) (b c : Byte) : (s.setRegFlag x b c).dt = s.dt := rfl
@[simp] theorem State.setRegFlag_st (s : State) (x : Nibble) (b c : Byte) : (s.setRegFlag x b c).st = s.st := rfl
@[simp] theorem State.setRegFlag_mem (s : State) (x : Nibble) (b c : Byte) : (s.setRegFlag x b c).mem = s.mem := rfl
@[simp] theorem State.setRegFlag_fb (s : State) (x : Nibble) (b c : Byte) : (s.setRegFlag x b c).fb = s.fb := rfl
@[simp] theorem State.setRegFlag_keys (s : State) (x : Nibble) (b c : Byte) : (s.setRegFlag x b c).keys = s.keys := rfl
@[simp] theorem State.setRegFlag_life (s : State) (x : Nibble) (b c : Byte) : (s.setRegFlag x b c).life = s.life := rfl
@[simp] theorem State.setRegFlag_runCpu (s : State) (x : Nibble) (b c : Byte) : (s.setRegFlag x b c).runCpu = s.runCpu := rfl
@[simp] theorem State.setRegFlag_runTmr (s : State) (x : Nibble) (b c : Byte) : (s.setRegFlag x b c).runTmr = s.runTmr := rfl
@[simp] theorem State.setRegFlag_gate (s : State) (x : Nibble) (b c : Byte) : (s.setRegFlag x b c).gate = s.gate := rfl
@[simp] theorem State.setRegFlag_waitx (s : State) (x : Nibble) (b c : Byte) : (s.setRegFlag x b c).waitx = s.waitx := rfl
@[simp] theorem State.setRegFlag_bc (s : State) (x : Nibble) (b c : Byte) : (s.setRegFlag x b c).bc = s.bc := rfl
@[simp] theorem State.setRegFlag_tone (s : State) (x : Nibble) (b c : Byte) : (s.setRegFlag x b c).tone = s.tone := rfl
@[simp] theorem State.setRegFlag_fault (s : State) (x : Nibble) (b c : Byte) : (s.setRegFlag x b c).fault = s.fault := rfl
@[simp] theorem State.setRegFlag_dirty (s : State) (x : Nibble) (b c : Byte) : (s.setRegFlag x b c).dirty = s.dirty := rfl
@[simp] theorem State.setRegFlag_shown (s : State) (x : Nibble) (b c : Byte) : (s.setRegFlag x b c).shown = s.shown := rfl
@[simp] theorem State.setRegFlag_rejected (s : State) (x : Nibble) (b c : Byte) : (s.setRegFlag x b c).rejected = s.rejected := rfl
@[simp] theorem State.setRegFlag_agenda (s : State) (x : Nibble) (b c : Byte) : (s.setRegFlag x b c).agenda = s.agenda := rfl
@[simp] theorem State.setRegFlag_eventCount (s : State) (x : Nibble) (b c : Byte) : (s.setRegFlag x b c).eventCount = s.eventCount := rfl
@[simp] theorem State.setRegFlag_draws (s : State) (x : Nibble) (b c : Byte) : (s.setRegFlag x b c).draws = s.draws := rfl
@[simp] theorem State.setRegFlag_memRead (s : State) (x : Nibble) (b c : Byte) (a : Nat) : (s.setRegFlag x b c).memRead a = s.memRead a := rfl

/-! ### setI -/

@[simp] theorem State.setI_v (s : State) (w : Word) : (s.setI w).v = s.v := rfl
@[simp] theorem State.setI_i (s : State) (w : Word) : (s.setI w).i = w := rfl
@[simp] theorem State.setI_pc (s : State) (w : Word) : (s.setI w).pc = s.pc := rfl
@[simp] theorem State.setI_sp (s : State) (w : Word) : (s.setI w).sp = s.sp := rfl
@[simp] theorem State.setI_stack (s : State) (w : Word) : (s.setI w).stack = s.stack := rfl
@[simp] theorem State.setI_dt (s : State) (w : Word) : (s.setI w).dt = s.dt := rfl
@[simp] theorem State.setI_st (s : State) (w : Word) : (s.setI w).st = s.st := rfl
@[simp] theorem State.setI_mem (s : State) (w : Word) : (s.setI w).mem = s.mem := rfl
@[simp] theorem State.setI_fb (s : State) (w : Word) : (s.setI w).fb = s.fb := rfl
@[simp] theorem State.setI_keys (s : State) (w : Word) : (s.setI w).keys = s.keys := rfl
@[simp] theorem State.setI_life (s : State) (w : Word) : (s.setI w).life = s.life := rfl
@[simp] theorem State.setI_runCpu (s : State) (w : Word) : (s.setI w).runCpu = s.runCpu := rfl
@[simp] theorem State.setI_runTmr (s : State) (w : Word) : (s.setI w).runTmr = s.runTmr := rfl
@[simp] theorem State.setI_gate (s : State) (w : Word) : (s.setI w).gate = s.gate := rfl
@[simp] theorem State.setI_waitx (s : State) (w : Word) : (s.setI w).waitx = s.waitx := rfl
@[simp] theorem State.setI_bc (s : State) (w : Word) : (s.setI w).bc = s.bc := rfl
@[simp] theorem State.setI_tone (s : State) (w : Word) : (s.setI w).tone = s.tone := rfl
@[simp] theorem State.setI_fault (s : State) (w : Word) : (s.setI w).fault = s.fault := rfl
@[simp] theorem State.setI_dirty (s : State) (w : Word) : (s.setI w).dirty = s.dirty := rfl
@[simp] theorem State.setI_shown (s : State) (w : Word) : (s.setI w).shown = s.shown := rfl
@[simp] theorem State.setI_rejected (s : State) (w : Word) : (s.setI w).rejected = s.rejected := rfl
@[simp] theorem State.setI_agenda (s : State) (w : Word) : (s.setI w).agenda = s.agenda := rfl
@[simp] theorem State.setI_eventCount (s : State) (w : Word) : (s.setI w).eventCount = s.eventCount := rfl
@[simp] theorem State.setI_draws (s : State) (w : Word) : (s.setI w).draws = s.draws := rfl
@[simp] theorem State.setI_reg (s : State) (w : Word) (q : Nibble) : (s.setI w).reg q = s.reg q := rfl
@[simp] theorem State.setI_memRead (s : State) (w : Word) (a : Nat) : (s.setI w).memRead a = s.memRead a := rfl

/-! ### setPc -/

@[simp] theorem State.setPc_v (s : State) (w : Word) : (s.setPc w).v = s.v := rfl
@[simp] theorem State.setPc_i (s : State) (w : Word) : (s.setPc w).i = s.i := rfl
@[simp] theorem State.setPc_pc (s : State) (w : Word) : (s.setPc w).pc = w := rfl
@[simp] theorem State.setPc_sp (s : State) (w : Word) : (s.setPc w).sp = s.sp := rfl
@[simp] theorem State.setPc_stack (s : State) (w : Word) : (s.setPc w).stack = s.stack := rfl
@[simp] theorem State.setPc_dt (s : State) (w : Word) : (s.setPc w).dt = s.dt := rfl
@[simp] theorem State.setPc_st (s : State) (w : Word) : (s.setPc w).st = s.st := rfl
@[simp] theorem State.setPc_mem (s : State) (w : Word) : (s.setPc w).mem = s.mem := rfl
@[simp] theorem State.setPc_fb (s : State) (w : Word) : (s.setPc w).fb = s.fb := rfl
@[simp] theorem State.setPc_keys (s : State) (w : Word) : (s.setPc w).keys = s.keys := rfl
@[simp] theorem State.setPc_life (s : State) (w : Word) : (s.setPc w).life = s.life := rfl
@[simp] theorem State.setPc_runCpu (s : State) (w : Word) : (s.setPc w).runCpu = s.runCpu := rfl
@[simp] theorem State.setPc_runTmr (s : State) (w : Word) : (s.setPc w).runTmr = s.runTmr := rfl
@[simp] theorem State.setPc_gate (s : State) (w : Word) : (s.setPc w).gate = s.gate := rfl
@[simp] theorem State.setPc_waitx (s : State) (w : Word) : (s.setPc w).waitx = s.waitx := rfl
@[simp] theorem State.setPc_bc (s : State) (w : Word) : (s.setPc w).bc = s.bc := rfl
@[simp] theorem State.setPc_tone (s : State) (w : Word) : (s.setPc w).tone = s.tone := rfl
@[simp] theorem State.setPc_fault (s : State) (w : Word) : (s.setPc w).fault = s.fault := rfl
@[simp] theorem State.setPc_dirty (s : State) (w : Word) : (s.setPc w).dirty = s.dirty := rfl
@[simp] theorem State.setPc_shown (s : State) (w : Word) : (s.setPc w).shown = s.shown := rfl
@[simp] theorem State.setPc_rejected (s : State) (w : Word) : (s.setPc w).rejected = s.rejected := rfl
@[simp] theorem State.setPc_agenda (s : State) (w : Word) : (s.setPc w).agenda = s.agenda := rfl
@[simp] theorem State.setPc_eventCount (s : State) (w : Word) : (s.setPc w).eventCount = s.eventCount := rfl
@[simp] theorem State.setPc_draws (s : State) (w : Word) : (s.setPc w).draws = s.draws := rfl
@[simp] theorem State.setPc_reg (s : State) (w : Word) (q : Nibble) : (s.setPc w).reg q = s.reg q := rfl
@[simp] theorem State.setPc_memRead (s : State) (w : Word) (a : Nat) : (s.setPc w).memRead a = s.memRead a := rfl

/-! ### advance -/

@[simp] theorem State.advance_v (s : State) : (s.advance).v = s.v := rfl
@[simp] theorem State.advance_i (s : State) : (s.advance).i = s.i := rfl
@[simp] theorem State.advance_pc (s : State) : (s.advance).pc = s.pc + 2 := rfl
@[simp] theorem State.advance_sp (s : State) : (s.advance).sp = s.sp := rfl
@[simp] theorem State.advance_stack (s : State) : (s.advance).stack = s.stack := rfl
@[simp] theorem State.advance_dt (s : State) : (s.advance).dt = s.dt := rfl
@[simp] theorem State.advance_st (s : State) : (s.advance).st = s.st := rfl
@[simp] theorem State.advance_mem (s : State) : (s.advance).mem = s.mem := rfl
@[simp] theorem State.advance_fb (s : State) : (s.advance).fb = s.fb := rfl
@[simp] theorem State.advance_keys (s : State) : (s.advance).keys = s.keys := rfl
@[simp] theorem State.advance_life (s : State) : (s.advance).life = s.life := rfl
@[simp] theorem State.advance_runCpu (s : State) : (s.advance).runCpu = s.runCpu := rfl
@[simp] theorem State.advance_runTmr (s : State) : (s.advance).runTmr = s.runTmr := rfl
@[simp] theorem State.advance_gate (s : State) : (s.advance).gate = s.gate := rfl
@[simp] theorem State.advance_waitx (s : State) : (s.advance).waitx = s.waitx := rfl
@[simp] theorem State.advance_bc (s : State) : (s.advance).bc = s.bc := rfl
@[simp] theorem State.advance_tone (s : State) : (s.advance).tone = s.tone := rfl
@[simp] theorem State.advance_fault (s : State) : (s.advance).fault = s.fault := rfl
@[simp] theorem State.advance_dirty (s : State) : (s.advance).dirty = s.dirty := rfl
@[simp] theorem State.advance_shown (s : State) : (s.advance).shown = s.shown := rfl
@[simp] theorem State.advance_rejected (s : State) : (s.advance).rejected = s.rejected := rfl
@[simp] theorem State.advance_agenda (s : State) : (s.advance).agenda = s.agenda := rfl
@[simp] theorem State.advance_eventCount (s : State) : (s.advance).eventCount = s.eventCount := rfl
@[simp] theorem State.advance_draws (s : State) : (s.advance).draws = s.draws := rfl
@[simp] theorem State.advance_reg (s : State) (q : Nibble) : (s.advance).reg q = s.reg q := rfl
@[simp] theorem State.advance_memRead (s : State) (a : Nat) : (s.advance).memRead a = s.memRead a := rfl

/-! ### memWriteList -/

@[simp] theorem State.memWriteList_v (s : State) (a : Nat) (bs : List Byte) : (s.memWriteList a bs).v = s.v := rfl
@[simp] theorem State.memWriteList_i (s : State) (a : Nat) (bs : List Byte) : (s.memWriteList a bs).i = s.i := rfl
@[simp] theorem State.memWriteList_pc (s : State) (a : Nat) (bs : List Byte) : (s.memWriteList a bs).pc = s.pc := rfl
@[simp] theorem State.memWriteList_sp (s : State) (a : Nat) (bs : List Byte) : (s.memWriteList a bs).sp = s.sp := rfl
@[simp] theorem State.memWriteList_stack (s : State) (a : Nat) (bs : List Byte) : (s.memWriteList a bs).stack = s.stack := rfl
@[simp] theorem State.memWriteList_dt (s : State) (a : Nat) (bs : List Byte) : (s.memWriteList a bs).dt = s.dt := rfl
@[simp] theorem State.memWriteList_st (s : State) (a : Nat) (bs : List Byte) : (s.memWriteList a bs).st = s.st := rfl
@[simp] theorem State.memWriteList_mem (s : State) (a : Nat) (bs : List Byte) : (s.memWriteList a bs).mem = Memory.writeList s.mem a bs := rfl
@[simp] theorem State.memWriteList_fb (s : State) (a : Nat) (bs : List Byte) : (s.memWriteList a bs).fb = s.fb := rfl
@[simp] theorem State.memWriteList_keys (s : State) (a : Nat) (bs : List Byte) : (s.memWriteList a bs).keys = s.keys := rfl
@[simp] theorem State.memWriteList_life (s : State) (a : Nat) (bs : List Byte) : (s.memWriteList a bs).life = s.life := rfl
@[simp] theorem State.memWriteList_runCpu (s : State) (a : Nat) (bs : List Byte) : (s.memWriteList a bs).runCpu = s.runCpu := rfl
@[simp] theorem State.memWriteList_runTmr (s : State) (a : Nat) (bs : List Byte) : (s.memWriteList a bs).runTmr = s.runTmr := rfl
@[simp] theorem State.memWriteList_gate (s : State) (a : Nat) (bs : List Byte) : (s.memWriteList a bs).gate = s.gate := rfl
@[simp] theorem State.memWriteList_waitx (s : State) (a : Nat) (bs : List Byte) : (s.memWriteList a bs).waitx = s.waitx := rfl
@[simp] theorem State.memWriteList_bc (s : State) (a : Nat) (bs : List Byte) : (s.memWriteList a bs).bc = s.bc := rfl
@[simp] theorem State.memWriteList_tone (s : State) (a : Nat) (bs : List Byte) : (s.memWriteList a bs).tone = s.tone := rfl
@[simp] theorem State.memWriteList_fault (s : State) (a : Nat) (bs : List Byte) : (s.memWriteList a bs).fault = s.fault := rfl
@[simp] theorem State.memWriteList_dirty (s : State) (a : Nat) (bs : List Byte) : (s.memWriteList a bs).dirty = s.dirty := rfl
@[simp] theorem State.memWriteList_shown (s : State) (a : Nat) (bs : List Byte) : (s.memWriteList a bs).shown = s.shown := rfl
@[simp] theorem State.memWriteList_rejected (s : State) (a : Nat) (bs : List Byte) : (s.memWriteList a bs).rejected = s.rejected := rfl
@[simp] theorem State.memWriteList_agenda (s : State) (a : Nat) (bs : List Byte) : (s.memWriteList a bs).agenda = s.agenda := rfl
@[simp] theorem State.memWriteList_eventCount (s : State) (a : Nat) (bs : List Byte) : (s.memWriteList a bs).eventCount = s.eventCount := rfl
@[simp] theorem State.memWriteList_draws (s : State) (a : Nat) (bs : List Byte) : (s.memWriteList a bs).draws = s.draws := rfl
@[simp] theorem State.memWriteList_reg (s : State) (a : Nat) (bs : List Byte) (q : Nibble) : (s.memWriteList a bs).reg q = s.reg q := rfl

/-! ### takeFault -/

@[simp] theorem State.takeFault_v (s : State) (r : FaultRecord) : (s.takeFault r).v = s.v := rfl
@[simp] theorem State.takeFault_i (s : State) (r : FaultRecord) : (s.takeFault r).i = s.i := rfl
@[simp] theorem State.takeFault_pc (s : State) (r : FaultRecord) : (s.takeFault r).pc = s.pc := rfl
@[simp] theorem State.takeFault_sp (s : State) (r : FaultRecord) : (s.takeFault r).sp = s.sp := rfl
@[simp] theorem State.takeFault_stack (s : State) (r : FaultRecord) : (s.takeFault r).stack = s.stack := rfl
@[simp] theorem State.takeFault_dt (s : State) (r : FaultRecord) : (s.takeFault r).dt = s.dt := rfl
@[simp] theorem State.takeFault_st (s : State) (r : FaultRecord) : (s.takeFault r).st = s.st := rfl
@[simp] theorem State.takeFault_mem (s : State) (r : FaultRecord) : (s.takeFault r).mem = s.mem := rfl
@[simp] theorem State.takeFault_fb (s : State) (r : FaultRecord) : (s.takeFault r).fb = s.fb := rfl
@[simp] theorem State.takeFault_keys (s : State) (r : FaultRecord) : (s.takeFault r).keys = s.keys := rfl
@[simp] theorem State.takeFault_life (s : State) (r : FaultRecord) : (s.takeFault r).life = s.life := rfl
@[simp] theorem State.takeFault_runCpu (s : State) (r : FaultRecord) : (s.takeFault r).runCpu = false := rfl
@[simp] theorem State.takeFault_runTmr (s : State) (r : FaultRecord) : (s.takeFault r).runTmr = s.runTmr := rfl
@[simp] theorem State.takeFault_gate (s : State) (r : FaultRecord) : (s.takeFault r).gate = s.gate := rfl
@[simp] theorem State.takeFault_waitx (s : State) (r : FaultRecord) : (s.takeFault r).waitx = s.waitx := rfl
@[simp] theorem State.takeFault_bc (s : State) (r : FaultRecord) : (s.takeFault r).bc = s.bc := rfl
@[simp] theorem State.takeFault_tone (s : State) (r : FaultRecord) : (s.takeFault r).tone = s.tone := rfl
@[simp] theorem State.takeFault_fault (s : State) (r : FaultRecord) : (s.takeFault r).fault = if s.fault.isNone then some r else s.fault := rfl
@[simp] theorem State.takeFault_dirty (s : State) (r : FaultRecord) : (s.takeFault r).dirty = s.dirty := rfl
@[simp] theorem State.takeFault_shown (s : State) (r : FaultRecord) : (s.takeFault r).shown = s.shown := rfl
@[simp] theorem State.takeFault_rejected (s : State) (r : FaultRecord) : (s.takeFault r).rejected = s.rejected := rfl
@[simp] theorem State.takeFault_agenda (s : State) (r : FaultRecord) : (s.takeFault r).agenda = s.agenda := rfl
@[simp] theorem State.takeFault_eventCount (s : State) (r : FaultRecord) : (s.takeFault r).eventCount = s.eventCount := rfl
@[simp] theorem State.takeFault_draws (s : State) (r : FaultRecord) : (s.takeFault r).draws = s.draws := rfl
@[simp] theorem State.takeFault_reg (s : State) (r : FaultRecord) (q : Nibble) : (s.takeFault r).reg q = s.reg q := rfl
@[simp] theorem State.takeFault_memRead (s : State) (r : FaultRecord) (a : Nat) : (s.takeFault r).memRead a = s.memRead a := rfl

/-! ### draw -/

@[simp] theorem State.draw_v (s : State) (ps : List Nat) : (s.draw ps).v = s.v.set 15 (collisionFlag (drawPixels s.fb false ps).2) := rfl
@[simp] theorem State.draw_i (s : State) (ps : List Nat) : (s.draw ps).i = s.i := rfl
@[simp] theorem State.draw_pc (s : State) (ps : List Nat) : (s.draw ps).pc = s.pc := rfl
@[simp] theorem State.draw_sp (s : State) (ps : List Nat) : (s.draw ps).sp = s.sp := rfl
@[simp] theorem State.draw_stack (s : State) (ps : List Nat) : (s.draw ps).stack = s.stack := rfl
@[simp] theorem State.draw_dt (s : State) (ps : List Nat) : (s.draw ps).dt = s.dt := rfl
@[simp] theorem State.draw_st (s : State) (ps : List Nat) : (s.draw ps).st = s.st := rfl
@[simp] theorem State.draw_mem (s : State) (ps : List Nat) : (s.draw ps).mem = s.mem := rfl
@[simp] theorem State.draw_fb (s : State) (ps : List Nat) : (s.draw ps).fb = (drawPixels s.fb false ps).1 := rfl
@[simp] theorem State.draw_keys (s : State) (ps : List Nat) : (s.draw ps).keys = s.keys := rfl
@[simp] theorem State.draw_life (s : State) (ps : List Nat) : (s.draw ps).life = s.life := rfl
@[simp] theorem State.draw_runCpu (s : State) (ps : List Nat) : (s.draw ps).runCpu = s.runCpu := rfl
@[simp] theorem State.draw_runTmr (s : State) (ps : List Nat) : (s.draw ps).runTmr = s.runTmr := rfl
@[simp] theorem State.draw_gate (s : State) (ps : List Nat) : (s.draw ps).gate = s.gate := rfl
@[simp] theorem State.draw_waitx (s : State) (ps : List Nat) : (s.draw ps).waitx = s.waitx := rfl
@[simp] theorem State.draw_bc (s : State) (ps : List Nat) : (s.draw ps).bc = s.bc := rfl
@[simp] theorem State.draw_tone (s : State) (ps : List Nat) : (s.draw ps).tone = s.tone := rfl
@[simp] theorem State.draw_fault (s : State) (ps : List Nat) : (s.draw ps).fault = s.fault := rfl
@[simp] theorem State.draw_dirty (s : State) (ps : List Nat) : (s.draw ps).dirty = true := rfl
@[simp] theorem State.draw_shown (s : State) (ps : List Nat) : (s.draw ps).shown = s.shown := rfl
@[simp] theorem State.draw_rejected (s : State) (ps : List Nat) : (s.draw ps).rejected = s.rejected := rfl
@[simp] theorem State.draw_agenda (s : State) (ps : List Nat) : (s.draw ps).agenda = s.agenda := rfl
@[simp] theorem State.draw_eventCount (s : State) (ps : List Nat) : (s.draw ps).eventCount = s.eventCount := rfl
@[simp] theorem State.draw_draws (s : State) (ps : List Nat) : (s.draw ps).draws = s.draws := rfl
@[simp] theorem State.draw_memRead (s : State) (ps : List Nat) (a : Nat) : (s.draw ps).memRead a = s.memRead a := rfl

/-! ### clearDirty -/

@[simp] theorem State.clearDirty_v (s : State) : (s.clearDirty).v = s.v := rfl
@[simp] theorem State.clearDirty_i (s : State) : (s.clearDirty).i = s.i := rfl
@[simp] theorem State.clearDirty_pc (s : State) : (s.clearDirty).pc = s.pc := rfl
@[simp] theorem State.clearDirty_sp (s : State) : (s.clearDirty).sp = s.sp := rfl
@[simp] theorem State.clearDirty_stack (s : State) : (s.clearDirty).stack = s.stack := rfl
@[simp] theorem State.clearDirty_dt (s : State) : (s.clearDirty).dt = s.dt := rfl
@[simp] theorem State.clearDirty_st (s : State) : (s.clearDirty).st = s.st := rfl
@[simp] theorem State.clearDirty_mem (s : State) : (s.clearDirty).mem = s.mem := rfl
@[simp] theorem State.clearDirty_fb (s : State) : (s.clearDirty).fb = s.fb := rfl
@[simp] theorem State.clearDirty_keys (s : State) : (s.clearDirty).keys = s.keys := rfl
@[simp] theorem State.clearDirty_life (s : State) : (s.clearDirty).life = s.life := rfl
@[simp] theorem State.clearDirty_runCpu (s : State) : (s.clearDirty).runCpu = s.runCpu := rfl
@[simp] theorem State.clearDirty_runTmr (s : State) : (s.clearDirty).runTmr = s.runTmr := rfl
@[simp] theorem State.clearDirty_gate (s : State) : (s.clearDirty).gate = s.gate := rfl
@[simp] theorem State.clearDirty_waitx (s : State) : (s.clearDirty).waitx = s.waitx := rfl
@[simp] theorem State.clearDirty_bc (s : State) : (s.clearDirty).bc = s.bc := rfl
@[simp] theorem State.clearDirty_tone (s : State) : (s.clearDirty).tone = s.tone := rfl
@[simp] theorem State.clearDirty_fault (s : State) : (s.clearDirty).fault = s.fault := rfl
@[simp] theorem State.clearDirty_dirty (s : State) : (s.clearDirty).dirty = false := rfl
@[simp] theorem State.clearDirty_shown (s : State) : (s.clearDirty).shown = s.shown := rfl
@[simp] theorem State.clearDirty_rejected (s : State) : (s.clearDirty).rejected = s.rejected := rfl
@[simp] theorem State.clearDirty_agenda (s : State) : (s.clearDirty).agenda = s.agenda := rfl
@[simp] theorem State.clearDirty_eventCount (s : State) : (s.clearDirty).eventCount = s.eventCount := rfl
@[simp] theorem State.clearDirty_draws (s : State) : (s.clearDirty).draws = s.draws := rfl
@[simp] theorem State.clearDirty_reg (s : State) (q : Nibble) : (s.clearDirty).reg q = s.reg q := rfl
@[simp] theorem State.clearDirty_memRead (s : State) (a : Nat) : (s.clearDirty).memRead a = s.memRead a := rfl

/-! ### fetched -/

@[simp] theorem State.fetched_v (s : State) : (s.fetched).v = s.v := rfl
@[simp] theorem State.fetched_i (s : State) : (s.fetched).i = s.i := rfl
@[simp] theorem State.fetched_pc (s : State) : (s.fetched).pc = s.pc + 2 := rfl
@[simp] theorem State.fetched_sp (s : State) : (s.fetched).sp = s.sp := rfl
@[simp] theorem State.fetched_stack (s : State) : (s.fetched).stack = s.stack := rfl
@[simp] theorem State.fetched_dt (s : State) : (s.fetched).dt = s.dt := rfl
@[simp] theorem State.fetched_st (s : State) : (s.fetched).st = s.st := rfl
@[simp] theorem State.fetched_mem (s : State) : (s.fetched).mem = s.mem := rfl
@[simp] theorem State.fetched_fb (s : State) : (s.fetched).fb = s.fb := rfl
@[simp] theorem State.fetched_keys (s : State) : (s.fetched).keys = s.keys := rfl
@[simp] theorem State.fetched_life (s : State) : (s.fetched).life = s.life := rfl
@[simp] theorem State.fetched_runCpu (s : State) : (s.fetched).runCpu = s.runCpu := rfl
@[simp] theorem State.fetched_runTmr (s : State) : (s.fetched).runTmr = s.runTmr := rfl
@[simp] theorem State.fetched_gate (s : State) : (s.fetched).gate = s.gate := rfl
@[simp] theorem State.fetched_waitx (s : State) : (s.fetched).waitx = s.waitx := rfl
@[simp] theorem State.fetched_bc (s : State) : (s.fetched).bc = s.bc := rfl
@[simp] theorem State.fetched_tone (s : State) : (s.fetched).tone = s.tone := rfl
@[simp] theorem State.fetched_fault (s : State) : (s.fetched).fault = s.fault := rfl
@[simp] theorem State.fetched_dirty (s : State) : (s.fetched).dirty = false := rfl
@[simp] theorem State.fetched_shown (s : State) : (s.fetched).shown = s.shown := rfl
@[simp] theorem State.fetched_rejected (s : State) : (s.fetched).rejected = s.rejected := rfl
@[simp] theorem State.fetched_agenda (s : State) : (s.fetched).agenda = s.agenda := rfl
@[simp] theorem State.fetched_eventCount (s : State) : (s.fetched).eventCount = s.eventCount := rfl
@[simp] theorem State.fetched_draws (s : State) : (s.fetched).draws = s.draws := rfl
@[simp] theorem State.fetched_reg (s : State) (q : Nibble) : (s.fetched).reg q = s.reg q := rfl
@[simp] theorem State.fetched_memRead (s : State) (a : Nat) : (s.fetched).memRead a = s.memRead a := rfl

/-! ### completeCycle -/

@[simp] theorem State.completeCycle_v (s : State) : (s.completeCycle).v = s.v := rfl
@[simp] theorem State.completeCycle_i (s : State) : (s.completeCycle).i = s.i := rfl
@[simp] theorem State.completeCycle_pc (s : State) : (s.completeCycle).pc = s.pc := rfl
@[simp] theorem State.completeCycle_sp (s : State) : (s.completeCycle).sp = s.sp := rfl
@[simp] theorem State.completeCycle_stack (s : State) : (s.completeCycle).stack = s.stack := rfl
@[simp] theorem State.completeCycle_dt (s : State) : (s.completeCycle).dt = s.dt := rfl
@[simp] theorem State.completeCycle_st (s : State) : (s.completeCycle).st = s.st := rfl
@[simp] theorem State.completeCycle_mem (s : State) : (s.completeCycle).mem = s.mem := rfl
@[simp] theorem State.completeCycle_fb (s : State) : (s.completeCycle).fb = s.fb := rfl
@[simp] theorem State.completeCycle_keys (s : State) : (s.completeCycle).keys = s.keys := rfl
@[simp] theorem State.completeCycle_life (s : State) : (s.completeCycle).life = s.life := rfl
@[simp] theorem State.completeCycle_runCpu (s : State) : (s.completeCycle).runCpu = s.runCpu := rfl
@[simp] theorem State.completeCycle_runTmr (s : State) : (s.completeCycle).runTmr = s.runTmr := rfl
@[simp] theorem State.completeCycle_gate (s : State) : (s.completeCycle).gate = s.gate := rfl
@[simp] theorem State.completeCycle_waitx (s : State) : (s.completeCycle).waitx = s.waitx := rfl
@[simp] theorem State.completeCycle_bc (s : State) : (s.completeCycle).bc = s.bc + 1 := rfl
@[simp] theorem State.completeCycle_tone (s : State) : (s.completeCycle).tone = s.tone := rfl
@[simp] theorem State.completeCycle_fault (s : State) : (s.completeCycle).fault = s.fault := rfl
@[simp] theorem State.completeCycle_dirty (s : State) : (s.completeCycle).dirty = s.dirty := rfl
@[simp] theorem State.completeCycle_shown (s : State) : (s.completeCycle).shown = if s.dirty then some s.fb else s.shown := rfl
@[simp] theorem State.completeCycle_rejected (s : State) : (s.completeCycle).rejected = s.rejected := rfl
@[simp] theorem State.completeCycle_agenda (s : State) : (s.completeCycle).agenda = s.agenda := rfl
@[simp] theorem State.completeCycle_eventCount (s : State) : (s.completeCycle).eventCount = s.eventCount := rfl
@[simp] theorem State.completeCycle_draws (s : State) : (s.completeCycle).draws = s.draws := rfl
@[simp] theorem State.completeCycle_reg (s : State) (q : Nibble) : (s.completeCycle).reg q = s.reg q := rfl
@[simp] theorem State.completeCycle_memRead (s : State) (a : Nat) : (s.completeCycle).memRead a = s.memRead a := rfl

/-! ### tick -/

@[simp] theorem State.tick_v (s : State) : (s.tick).v = s.v := rfl
@[simp] theorem State.tick_i (s : State) : (s.tick).i = s.i := rfl
@[simp] theorem State.tick_pc (s : State) : (s.tick).pc = s.pc := rfl
@[simp] theorem State.tick_sp (s : State) : (s.tick).sp = s.sp := rfl
@[simp] theorem State.tick_stack (s : State) : (s.tick).stack = s.stack := rfl
@[simp] theorem State.tick_dt (s : State) : (s.tick).dt = if 0 < s.dt.toNat then s.dt - 1 else s.dt := rfl
@[simp] theorem State.tick_st (s : State) : (s.tick).st = if 0 < s.st.toNat then s.st - 1 else s.st := rfl
@[simp] theorem State.tick_mem (s : State) : (s.tick).mem = s.mem := rfl
@[simp] theorem State.tick_fb (s : State) : (s.tick).fb = s.fb := rfl
@[simp] theorem State.tick_keys (s : State) : (s.tick).keys = s.keys := rfl
@[simp] theorem State.tick_life (s : State) : (s.tick).life = s.life := rfl
@[simp] theorem State.tick_runCpu (s : State) : (s.tick).runCpu = s.runCpu := rfl
@[simp] theorem State.tick_runTmr (s : State) : (s.tick).runTmr = s.runTmr := rfl
@[simp] theorem State.tick_gate (s : State) : (s.tick).gate = s.gate := rfl
@[simp] theorem State.tick_waitx (s : State) : (s.tick).waitx = s.waitx := rfl
@[simp] theorem State.tick_bc (s : State) : (s.tick).bc = s.bc := rfl
@[simp] theorem State.tick_tone (s : State) : (s.tick).tone = decide (0 < s.st.toNat) := rfl
@[simp] theorem State.tick_fault (s : State) : (s.tick).fault = s.fault := rfl
@[simp] theorem State.tick_dirty (s : State) : (s.tick).dirty = s.dirty := rfl
@[simp] theorem State.tick_shown (s : State) : (s.tick).shown = s.shown := rfl
@[simp] theorem State.tick_rejected (s : State) : (s.tick).rejected = s.rejected := rfl
@[simp] theorem State.tick_agenda (s : State) : (s.tick).agenda = s.agenda := rfl
@[simp] theorem State.tick_eventCount (s : State) : (s.tick).eventCount = s.eventCount := rfl
@[simp] theorem State.tick_draws (s : State) : (s.tick).draws = s.draws := rfl
@[simp] theorem State.tick_reg (s : State) (q : Nibble) : (s.tick).reg q = s.reg q := rfl
@[simp] theorem State.tick_memRead (s : State) (a : Nat) : (s.tick).memRead a = s.memRead a := rfl

/-! ### endWait -/

@[simp] theorem State.endWait_v (s : State) (k : Nat) : (s.endWait k).v = s.v.set s.waitx.toNat (BitVec.ofNat 8 k) s.waitx.isLt := rfl
@[simp] theorem State.endWait_i (s : State) (k : Nat) : (s.endWait k).i = s.i := rfl
@[simp] theorem State.endWait_pc (s : State) (k : Nat) : (s.endWait k).pc = s.pc := rfl
@[simp] theorem State.endWait_sp (s : State) (k : Nat) : (s.endWait k).sp = s.sp := rfl
@[simp] theorem State.endWait_stack (s : State) (k : Nat) : (s.endWait k).stack = s.stack := rfl
@[simp] theorem State.endWait_dt (s : State) (k : Nat) : (s.endWait k).dt = s.dt := rfl
@[simp] theorem State.endWait_st (s : State) (k : Nat) : (s.endWait k).st = s.st := rfl
@[simp] theorem State.endWait_mem (s : State) (k : Nat) : (s.endWait k).mem = s.mem := rfl
@[simp] theorem State.endWait_fb (s : State) (k : Nat) : (s.endWait k).fb = s.fb := rfl
@[simp] theorem State.endWait_keys (s : State) (k : Nat) : (s.endWait k).keys = s.keys := rfl
@[simp] theorem State.endWait_life (s : State) (k : Nat) : (s.endWait k).life = s.life := rfl
@[simp] theorem State.endWait_runCpu (s : State) (k : Nat) : (s.endWait k).runCpu = s.runCpu := rfl
@[simp] theorem State.endWait_runTmr (s : State) (k : Nat) : (s.endWait k).runTmr = s.runTmr := rfl
@[simp] theorem State.endWait_gate (s : State) (k : Nat) : (s.endWait k).gate = .running := rfl
@[simp] theorem State.endWait_waitx (s : State) (k : Nat) : (s.endWait k).waitx = s.waitx := rfl
@[simp] theorem State.endWait_bc (s : State) (k : Nat) : (s.endWait k).bc = s.bc := rfl
@[simp] theorem State.endWait_tone (s : State) (k : Nat) : (s.endWait k).tone = s.tone := rfl
@[simp] theorem State.endWait_fault (s : State) (k : Nat) : (s.endWait k).fault = s.fault := rfl
@[simp] theorem State.endWait_dirty (s : State) (k : Nat) : (s.endWait k).dirty = s.dirty := rfl
@[simp] theorem State.endWait_shown (s : State) (k : Nat) : (s.endWait k).shown = s.shown := rfl
@[simp] theorem State.endWait_rejected (s : State) (k : Nat) : (s.endWait k).rejected = s.rejected := rfl
@[simp] theorem State.endWait_agenda (s : State) (k : Nat) : (s.endWait k).agenda = s.agenda := rfl
@[simp] theorem State.endWait_eventCount (s : State) (k : Nat) : (s.endWait k).eventCount = s.eventCount := rfl
@[simp] theorem State.endWait_draws (s : State) (k : Nat) : (s.endWait k).draws = s.draws := rfl
@[simp] theorem State.endWait_memRead (s : State) (k : Nat) (a : Nat) : (s.endWait k).memRead a = s.memRead a := rfl

/-! ### start -/

@[simp] theorem State.start_v (s : State) : (s.start).v = s.v := rfl
@[simp] theorem State.start_i (s : State) : (s.start).i = s.i := rfl
@[simp] theorem State.start_pc (s : State) : (s.start).pc = s.pc := rfl
@[simp] theorem State.start_sp (s : State) : (s.start).sp = s.sp := rfl
@[simp] theorem State.start_stack (s : State) : (s.start).stack = s.stack := rfl
@[simp] theorem State.start_dt (s : State) : (s.start).dt = s.dt := rfl
@[simp] theorem State.start_st (s : State) : (s.start).st = s.st := rfl
@[simp] theorem State.start_mem (s : State) : (s.start).mem = s.mem := rfl
@[simp] theorem State.start_fb (s : State) : (s.start).fb = s.fb := rfl
@[simp] theorem State.start_keys (s : State) : (s.start).keys = s.keys := rfl
@[simp] theorem State.start_life (s : State) : (s.start).life = .active := rfl
@[simp] theorem State.start_runCpu (s : State) : (s.start).runCpu = true := rfl
@[simp] theorem State.start_runTmr (s : State) : (s.start).runTmr = true := rfl
@[simp] theorem State.start_gate (s : State) : (s.start).gate = s.gate := rfl
@[simp] theorem State.start_waitx (s : State) : (s.start).waitx = s.waitx := rfl
@[simp] theorem State.start_bc (s : State) : (s.start).bc = s.bc := rfl
@[simp] theorem State.start_tone (s : State) : (s.start).tone = s.tone := rfl
@[simp] theorem State.start_fault (s : State) : (s.start).fault = s.fault := rfl
@[simp] theorem State.start_dirty (s : State) : (s.start).dirty = s.dirty := rfl
@[simp] theorem State.start_shown (s : State) : (s.start).shown = s.shown := rfl
@[simp] theorem State.start_rejected (s : State) : (s.start).rejected = s.rejected := rfl
@[simp] theorem State.start_agenda (s : State) : (s.start).agenda = s.agenda := rfl
@[simp] theorem State.start_eventCount (s : State) : (s.start).eventCount = s.eventCount := rfl
@[simp] theorem State.start_draws (s : State) : (s.start).draws = s.draws := rfl
@[simp] theorem State.start_reg (s : State) (q : Nibble) : (s.start).reg q = s.reg q := rfl
@[simp] theorem State.start_memRead (s : State) (a : Nat) : (s.start).memRead a = s.memRead a := rfl

/-! ### stop -/

@[simp] theorem State.stop_v (s : State) : (s.stop).v = s.v := rfl
@[simp] theorem State.stop_i (s : State) : (s.stop).i = s.i := rfl
@[simp] theorem State.stop_pc (s : State) : (s.stop).pc = s.pc := rfl
@[simp] theorem State.stop_sp (s : State) : (s.stop).sp = s.sp := rfl
@[simp] theorem State.stop_stack (s : State) : (s.stop).stack = s.stack := rfl
@[simp] theorem State.stop_dt (s : State) : (s.stop).dt = s.dt := rfl
@[simp] theorem State.stop_st (s : State) : (s.stop).st = s.st := rfl
@[simp] theorem State.stop_mem (s : State) : (s.stop).mem = s.mem := rfl
@[simp] theorem State.stop_fb (s : State) : (s.stop).fb = s.fb := rfl
@[simp] theorem State.stop_keys (s : State) : (s.stop).keys = s.keys := rfl
@[simp] theorem State.stop_life (s : State) : (s.stop).life = .stopped := rfl
@[simp] theorem State.stop_runCpu (s : State) : (s.stop).runCpu = false := rfl
@[simp] theorem State.stop_runTmr (s : State) : (s.stop).runTmr = false := rfl
@[simp] theorem State.stop_gate (s : State) : (s.stop).gate = s.gate := rfl
@[simp] theorem State.stop_waitx (s : State) : (s.stop).waitx = s.waitx := rfl
@[simp] theorem State.stop_bc (s : State) : (s.stop).bc = s.bc := rfl
@[simp] theorem State.stop_tone (s : State) : (s.stop).tone = s.tone := rfl
@[simp] theorem State.stop_fault (s : State) : (s.stop).fault = s.fault := rfl
@[simp] theorem State.stop_dirty (s : State) : (s.stop).dirty = s.dirty := rfl
@[simp] theorem State.stop_shown (s : State) : (s.stop).shown = s.shown := rfl
@[simp] theorem State.stop_rejected (s : State) : (s.stop).rejected = s.rejected := rfl
@[simp] theorem State.stop_agenda (s : State) : (s.stop).agenda = s.agenda := rfl
@[simp] theorem State.stop_eventCount (s : State) : (s.stop).eventCount = s.eventCount := rfl
@[simp] theorem State.stop_draws (s : State) : (s.stop).draws = s.draws := rfl
@[simp] theorem State.stop_reg (s : State) (q : Nibble) : (s.stop).reg q = s.reg q := rfl
@[simp] theorem State.stop_memRead (s : State) (a : Nat) : (s.stop).memRead a = s.memRead a := rfl

/-! ### skipIf -/

@[simp] theorem State.skipIf_v (s : State) (c : Bool) : (s.skipIf c).v = s.v := by cases c <;> rfl
@[simp] theorem State.skipIf_i (s : State) (c : Bool) : (s.skipIf c).i = s.i := by cases c <;> rfl
@[simp] theorem State.skipIf_sp (s : State) (c : Bool) : (s.skipIf c).sp = s.sp := by cases c <;> rfl
@[simp] theorem State.skipIf_stack (s : State) (c : Bool) : (s.skipIf c).stack = s.stack := by cases c <;> rfl
@[simp] theorem State.skipIf_dt (s : State) (c : Bool) : (s.skipIf c).dt = s.dt := by cases c <;> rfl
@[simp] theorem State.skipIf_st (s : State) (c : Bool) : (s.skipIf c).st = s.st := by cases c <;> rfl
@[simp] theorem State.skipIf_mem (s : State) (c : Bool) : (s.skipIf c).mem = s.mem := by cases c <;> rfl
@[simp] theorem State.skipIf_fb (s : State) (c : Bool) : (s.skipIf c).fb = s.fb := by cases c <;> rfl
@[simp] theorem State.skipIf_keys (s : State) (c : Bool) : (s.skipIf c).keys = s.keys := by cases c <;> rfl
@[simp] theorem State.skipIf_life (s : State) (c : Bool) : (s.skipIf c).life = s.life := by cases c <;> rfl
@[simp] theorem State.skipIf_runCpu (s : State) (c : Bool) : (s.skipIf c).runCpu = s.runCpu := by cases c <;> rfl
@[simp] theorem State.skipIf_runTmr (s : State) (c : Bool) : (s.skipIf c).runTmr = s.runTmr := by cases c <;> rfl
@[simp] theorem State.skipIf_gate (s : State) (c : Bool) : (s.skipIf c).gate = s.gate := by cases c <;> rfl
@[simp] theorem State.skipIf_waitx (s : State) (c : Bool) : (s.skipIf c).waitx = s.waitx := by cases c <;> rfl
@[simp] theorem State.skipIf_bc (s : State) (c : Bool) : (s.skipIf c).bc = s.bc := by cases c <;> rfl
@[simp] theorem State.skipIf_tone (s : State) (c : Bool) : (s.skipIf c).tone = s.tone := by cases c <;> rfl
@[simp] theorem State.skipIf_fault (s : State) (c : Bool) : (s.skipIf c).fault = s.fault := by cases c <;> rfl
@[simp] theorem State.skipIf_dirty (s : State) (c : Bool) : (s.skipIf c).dirty = s.dirty := by cases c <;> rfl
@[simp] theorem State.skipIf_shown (s : State) (c : Bool) : (s.skipIf c).shown = s.shown := by cases c <;> rfl
@[simp] theorem State.skipIf_rejected (s : State) (c : Bool) : (s.skipIf c).rejected = s.rejected := by cases c <;> rfl
@[simp] theorem State.skipIf_agenda (s : State) (c : Bool) : (s.skipIf c).agenda = s.agenda := by cases c <;> rfl
@[simp] theorem State.skipIf_eventCount (s : State) (c : Bool) : (s.skipIf c).eventCount = s.eventCount := by cases c <;> rfl
@[simp] theorem State.skipIf_draws (s : State) (c : Bool) : (s.skipIf c).draws = s.draws := by cases c <;> rfl
@[simp] theorem State.skipIf_reg (s : State) (c : Bool) (q : Nibble) : (s.skipIf c).reg q = s.reg q := by simp [State.reg]
@[simp] theorem State.skipIf_memRead (s : State) (c : Bool) (a : Nat) : (s.skipIf c).memRead a = s.memRead a := by simp [State.memRead]

@[simp] theorem State.skipIf_pc (s : State) (c : Bool) : (s.skipIf c).pc = if c then s.pc + 2 else s.pc := by cases c <;> rfl

/-! ### setKey -/

@[simp] theorem State.setKey_v (s : State) (k : Nat) (d : Bool) : (s.setKey k d).v = s.v := by unfold State.setKey; split <;> rfl
@[simp] theorem State.setKey_i (s : State) (k : Nat) (d : Bool) : (s.setKey k d).i = s.i := by unfold State.setKey; split <;> rfl
@[simp] theorem State.setKey_pc (s : State) (k : Nat) (d : Bool) : (s.setKey k d).pc = s.pc := by unfold State.setKey; split <;> rfl
@[simp] theorem State.setKey_sp (s : State) (k : Nat) (d : Bool) : (s.setKey k d).sp = s.sp := by unfold State.setKey; split <;> rfl
@[simp] theorem State.setKey_stack (s : State) (k : Nat) (d : Bool) : (s.setKey k d).stack = s.stack := by unfold State.setKey; split <;> rfl
@[simp] theorem State.setKey_dt (s : State) (k : Nat) (d : Bool) : (s.setKey k d).dt = s.dt := by unfold State.setKey; split <;> rfl
@[simp] theorem State.setKey_st (s : State) (k : Nat) (d : Bool) : (s.setKey k d).st = s.st := by unfold State.setKey; split <;> rfl
@[simp] theorem State.setKey_mem (s : State) (k : Nat) (d : Bool) : (s.setKey k d).mem = s.mem := by unfold State.setKey; split <;> rfl
@[simp] theorem State.setKey_fb (s : State) (k : Nat) (d : Bool) : (s.setKey k d).fb = s.fb := by unfold State.setKey; split <;> rfl
@[simp] theorem State.setKey_life (s : State) (k : Nat) (d : Bool) : (s.setKey k d).life = s.life := by unfold State.setKey; split <;> rfl
@[simp] theorem State.setKey_runCpu (s : State) (k : Nat) (d : Bool) : (s.setKey k d).runCpu = s.runCpu := by unfold State.setKey; split <;> rfl
@[simp] theorem State.setKey_runTmr (s : State) (k : Nat) (d : Bool) : (s.setKey k d).runTmr = s.runTmr := by unfold State.setKey; split <;> rfl
@[simp] theorem State.setKey_gate (s : State) (k : Nat) (d : Bool) : (s.setKey k d).gate = s.gate := by unfold State.setKey; split <;> rfl
@[simp] theorem State.setKey_waitx (s : State) (k : Nat) (d : Bool) : (s.setKey k d).waitx = s.waitx := by unfold State.setKey; split <;> rfl
@[simp] theorem State.setKey_bc (s : State) (k : Nat) (d : Bool) : (s.setKey k d).bc = s.bc := by unfold State.setKey; split <;> rfl
@[simp] theorem State.setKey_tone (s : State) (k : Nat) (d : Bool) : (s.setKey k d).tone = s.tone := by unfold State.setKey; split <;> rfl
@[simp] theorem State.setKey_fault (s : State) (k : Nat) (d : Bool) : (s.setKey k d).fault = s.fault := by unfold State.setKey; split <;> rfl
@[simp] theorem State.setKey_dirty (s : State) (k : Nat) (d : Bool) : (s.setKey k d).dirty = s.dirty := by unfold State.setKey; split <;> rfl
@[simp] theorem State.setKey_shown (s : State) (k : Nat) (d : Bool) : (s.setKey k d).shown = s.shown := by unfold State.setKey; split <;> rfl
@[simp] theorem State.setKey_rejected (s : State) (k : Nat) (d : Bool) : (s.setKey k d).rejected = s.rejected := by unfold State.setKey; split <;> rfl
@[simp] theorem State.setKey_agenda (s : State) (k : Nat) (d : Bool) : (s.setKey k d).agenda = s.agenda := by unfold State.setKey; split <;> rfl
@[simp] theorem State.setKey_eventCount (s : State) (k : Nat) (d : Bool) : (s.setKey k d).eventCount = s.eventCount := by unfold State.setKey; split <;> rfl
@[simp] theorem State.setKey_draws (s : State) (k : Nat) (d : Bool) : (s.setKey k d).draws = s.draws := by unfold State.setKey; split <;> rfl
@[simp] theorem State.setKey_reg (s : State) (k : Nat) (d : Bool) (q : Nibble) : (s.setKey k d).reg q = s.reg q := by simp [State.reg]
@[simp] theorem State.setKey_memRead (s : State) (k : Nat) (d : Bool) (a : Nat) : (s.setKey k d).memRead a = s.memRead a := by simp [State.memRead]

/-! ### takeEvent -/

@[simp] theorem State.takeEvent_v (s : State) : (s.takeEvent).v = s.v := by unfold State.takeEvent; split <;> rfl
@[simp] theorem State.takeEvent_i (s : State) : (s.takeEvent).i = s.i := by unfold State.takeEvent; split <;> rfl
@[simp] theorem State.takeEvent_pc (s : State) : (s.takeEvent).pc = s.pc := by unfold State.takeEvent; split <;> rfl
@[simp] theorem State.takeEvent_sp (s : State) : (s.takeEvent).sp = s.sp := by unfold State.takeEvent; split <;> rfl
@[simp] theorem State.takeEvent_stack (s : State) : (s.takeEvent).stack = s.stack := by unfold State.takeEvent; split <;> rfl
@[simp] theorem State.takeEvent_dt (s : State) : (s.takeEvent).dt = s.dt := by unfold State.takeEvent; split <;> rfl
@[simp] theorem State.takeEvent_st (s : State) : (s.takeEvent).st = s.st := by unfold State.takeEvent; split <;> rfl
@[simp] theorem State.takeEvent_mem (s : State) : (s.takeEvent).mem = s.mem := by unfold State.takeEvent; split <;> rfl
@[simp] theorem State.takeEvent_fb (s : State) : (s.takeEvent).fb = s.fb := by unfold State.takeEvent; split <;> rfl
@[simp] theorem State.takeEvent_keys (s : State) : (s.takeEvent).keys = s.keys := by unfold State.takeEvent; split <;> rfl
@[simp] theorem State.takeEvent_life (s : State) : (s.takeEvent).life = s.life := by unfold State.takeEvent; split <;> rfl
@[simp] theorem State.takeEvent_runCpu (s : State) : (s.takeEvent).runCpu = s.runCpu := by unfold State.takeEvent; split <;> rfl
@[simp] theorem State.takeEvent_runTmr (s : State) : (s.takeEvent).runTmr = s.runTmr := by unfold State.takeEvent; split <;> rfl
@[simp] theorem State.takeEvent_gate (s : State) : (s.takeEvent).gate = s.gate := by unfold State.takeEvent; split <;> rfl
@[simp] theorem State.takeEvent_waitx (s : State) : (s.takeEvent).waitx = s.waitx := by unfold State.takeEvent; split <;> rfl
@[simp] theorem State.takeEvent_bc (s : State) : (s.takeEvent).bc = s.bc := by unfold State.takeEvent; split <;> rfl
@[simp] theorem State.takeEvent_tone (s : State) : (s.takeEvent).tone = s.tone := by unfold State.takeEvent; split <;> rfl
@[simp] theorem State.takeEvent_fault (s : State) : (s.takeEvent).fault = s.fault := by unfold State.takeEvent; split <;> rfl
@[simp] theorem State.takeEvent_dirty (s : State) : (s.takeEvent).dirty = s.dirty := by unfold State.takeEvent; split <;> rfl
@[simp] theorem State.takeEvent_shown (s : State) : (s.takeEvent).shown = s.shown := by unfold State.takeEvent; split <;> rfl
@[simp] theorem State.takeEvent_rejected (s : State) : (s.takeEvent).rejected = s.rejected := by unfold State.takeEvent; split <;> rfl
@[simp] theorem State.takeEvent_draws (s : State) : (s.takeEvent).draws = s.draws := by unfold State.takeEvent; split <;> rfl
@[simp] theorem State.takeEvent_reg (s : State) (q : Nibble) : (s.takeEvent).reg q = s.reg q := by simp [State.reg]
@[simp] theorem State.takeEvent_memRead (s : State) (a : Nat) : (s.takeEvent).memRead a = s.memRead a := by simp [State.memRead]

/-! ### snapshot -/

/-- Two states with one view differ in the outputs and the inputs to come alone: the view holds all the machine's state. -/
theorem State.eq_of_view_eq {s t : State} (h : s.view = t.view) :
    t = { s with dirty := t.dirty, shown := t.shown, rejected := t.rejected, agenda := t.agenda, eventCount := t.eventCount,
                 draws := t.draws } := by
  cases s; cases t
  simp only [State.view, Snapshot.mk.injEq] at h
  simp [h]

/-- The snapshot answers exactly at yield points, with the view. -/
theorem State.snapshot_eq_some_iff {s : State} {p : Snapshot} : s.snapshot = some p ↔ s.atYield = true ∧ s.view = p := by
  simp [State.snapshot]

/-- Inside a batch there is no snapshot. -/
theorem State.snapshot_eq_none_iff {s : State} : s.snapshot = none ↔ s.atYield = false := by
  simp [State.snapshot]

/-- With the CPU loop not running, after a fault among it, all state is readable (60_exceptions.md R185). -/
theorem State.snapshot_of_not_running {s : State} (h : s.runCpu = false) : s.snapshot = some s.view := by
  simp [State.snapshot, State.atYield, h]

end Sys2Proof.Machine
end

