-- ==== Sys2Proof/Laws/Memory.lean ====
section
/-! SUPPORT. What the memory operations do, said once: a read after a write, on any cell list, canonical or not; and that every write
keeps the canonical form. -/

namespace Sys2Proof.Machine

theorem Memory.read_filter_same (m : List Host.Cell) (a : Nat) : Memory.read (m.filter (·.1 ≠ a)) a = 0 := by
  induction m with
  | nil => rfl
  | cons c m ih => by_cases h : c.1 = a <;> simp_all [Memory.read]

theorem Memory.read_filter_other (m : List Host.Cell) {a b : Nat} (h : b ≠ a) :
    Memory.read (m.filter (·.1 ≠ a)) b = Memory.read m b := by
  induction m with
  | nil => rfl
  | cons c m ih =>
    by_cases hc : c.1 = a
    · have : c.1 ≠ b := fun e => h (e ▸ hc)
      simp_all [Memory.read]
    · simp_all [Memory.read]

theorem Memory.read_insert_same (m : List Host.Cell) (a : Nat) (v : Byte) (h : ∀ c ∈ m, c.1 ≠ a) :
    Memory.read (Memory.insert a v m) a = v := by
  induction m with
  | nil => simp [Memory.insert, Memory.read]
  | cons c m ih =>
    have hc : c.1 ≠ a := h c (by simp)
    unfold Memory.insert
    split
    · simp [Memory.read]
    · simp [Memory.read, hc, ih (fun d hd => h d (by simp [hd]))]

theorem Memory.read_insert_other (m : List Host.Cell) {a b : Nat} (v : Byte) (h : b ≠ a) :
    Memory.read (Memory.insert a v m) b = Memory.read m b := by
  induction m with
  | nil => simp [Memory.insert, Memory.read, Ne.symm h]
  | cons c m ih =>
    unfold Memory.insert
    split
    · simp [Memory.read, Ne.symm h]
    · simp [Memory.read, ih]

/-- A read after one write (20_memory.md R53, R59). -/
theorem Memory.read_write (m : List Host.Cell) (a b : Nat) (v : Byte) :
    Memory.read (Memory.write m a v) b = if b = a then v else Memory.read m b := by
  unfold Memory.write
  by_cases hb : b = a
  · subst hb
    split
    · rename_i hv; rw [Memory.read_filter_same, if_pos rfl, hv]
    · rw [Memory.read_insert_same]
      · simp
      · intro c hc; simpa using (List.mem_filter.mp hc).2
  · split
    · rw [Memory.read_filter_other m hb]
    · rw [Memory.read_insert_other _ _ hb, Memory.read_filter_other m hb]

/-- A read after consecutive writes: inside them the list's byte, outside them as before. -/
theorem Memory.read_writeList (bs : List Byte) (m : List Host.Cell) (a b : Nat) :
    Memory.read (Memory.writeList m a bs) b = if a ≤ b then bs.getD (b - a) (Memory.read m b) else Memory.read m b := by
  induction bs generalizing m a with
  | nil => simp [Memory.writeList]
  | cons c bs ih =>
    rw [Memory.writeList, ih, Memory.read_write]
    rcases Nat.lt_trichotomy b a with hlt | heq | hgt
    · simp [show ¬ a + 1 ≤ b by omega, show ¬ a ≤ b by omega, show b ≠ a by omega]
    · simp [heq]
    · obtain ⟨d, hd⟩ : ∃ d, b - a = d + 1 := ⟨b - a - 1, by omega⟩
      have hd' : b - (a + 1) = d := by omega
      simp [show a + 1 ≤ b by omega, show a ≤ b by omega, show b ≠ a by omega, hd, hd']

theorem State.memRead_memWriteList (s : State) (a b : Nat) (bs : List Byte) :
    (s.memWriteList a bs).memRead b = if a ≤ b then bs.getD (b - a) (s.memRead b) else s.memRead b :=
  Memory.read_writeList bs s.mem a b

theorem State.memRead_memWriteList_outside (s : State) {a b : Nat} {bs : List Byte} (h : b < a ∨ a + bs.length ≤ b) :
    (s.memWriteList a bs).memRead b = s.memRead b := by
  rw [State.memRead_memWriteList]
  split
  · rw [List.getD_eq_default]; omega
  · rfl

theorem State.memRead_memWriteList_inside (s : State) (a k : Nat) (bs : List Byte) (h : k < bs.length) :
    (s.memWriteList a bs).memRead (a + k) = bs[k] := by
  simp [State.memRead_memWriteList, h]

/-- Every cell of a list with one more inserted was there or is the new one. -/
theorem Memory.mem_insert {a : Nat} {v : Byte} {m : List Host.Cell} {c : Host.Cell} (h : c ∈ Memory.insert a v m) :
    c = (a, v) ∨ c ∈ m := by
  induction m with
  | nil => simpa [Memory.insert] using h
  | cons d m ih =>
    unfold Memory.insert at h
    split at h
    · simpa using h
    · rcases List.mem_cons.mp h with h | h
      · simp [h]
      · rcases ih h with h | h <;> simp [h]

theorem Memory.insert_sorted (a : Nat) (v : Byte) (m : List Host.Cell) (hs : m.Pairwise (fun c d => c.1 < d.1))
    (hne : ∀ c ∈ m, c.1 ≠ a) : (Memory.insert a v m).Pairwise (fun c d => c.1 < d.1) := by
  induction m with
  | nil => simp [Memory.insert]
  | cons c m ih =>
    obtain ⟨hc, hm⟩ := List.pairwise_cons.mp hs
    unfold Memory.insert
    split
    · rename_i hlt
      refine List.pairwise_cons.mpr ⟨?_, hs⟩
      intro d hd
      rcases List.mem_cons.mp hd with rfl | hd
      · exact hlt
      · exact Nat.lt_trans hlt (hc d hd)
    · rename_i hnlt
      have hca : c.1 ≠ a := hne c (by simp)
      refine List.pairwise_cons.mpr ⟨?_, ih hm (fun d hd => hne d (by simp [hd]))⟩
      intro d hd
      rcases Memory.mem_insert hd with rfl | hd
      · simp; omega
      · exact hc d hd

/-- A write inside MEM keeps the canonical form. -/
theorem Memory.wf_write {m : List Host.Cell} {a : Nat} (v : Byte) (h : Memory.wf m) (ha : a < 4096) :
    Memory.wf (Memory.write m a v) := by
  obtain ⟨hs, hb⟩ := h
  have hf : (m.filter (·.1 ≠ a)).Pairwise (fun c d => c.1 < d.1) := hs.filter _
  unfold Memory.write
  split
  · exact ⟨hf, fun c hc => hb c (List.mem_filter.mp hc).1⟩
  · rename_i hv
    refine ⟨Memory.insert_sorted a v _ hf (fun c hc => by simpa using (List.mem_filter.mp hc).2), fun c hc => ?_⟩
    rcases Memory.mem_insert hc with rfl | hc
    · exact ⟨ha, hv⟩
    · exact hb c (List.mem_filter.mp hc).1

/-- Consecutive writes inside MEM keep the canonical form. -/
theorem Memory.wf_writeList (bs : List Byte) {m : List Host.Cell} {a : Nat} (h : Memory.wf m) (ha : a + bs.length ≤ 4096) :
    Memory.wf (Memory.writeList m a bs) := by
  induction bs generalizing m a with
  | nil => exact h
  | cons b bs ih =>
    have : a + 1 + bs.length ≤ 4096 := by simp at ha; omega
    exact ih (Memory.wf_write b h (by omega)) this

end Sys2Proof.Machine
end

