-- ==== Sys2Proof/Laws/Registers.lean ====
section
/-! SUPPORT. What the register operations do, said once: reads after writes, the flag-writing pair, and the register lists of FX55 and
FX65. -/

namespace Sys2Proof.Machine

theorem State.reg_setReg (s : State) (x r : Nibble) (b : Byte) : (s.setReg x b).reg r = if r = x then b else s.reg r := by
  by_cases h : r = x
  · subst h; simp [State.reg]
  · have : x.toNat ≠ r.toNat := fun e => h (BitVec.eq_of_toNat_eq e.symm)
    simp [State.reg, this, h]

@[simp] theorem State.reg_setReg_same (s : State) (x : Nibble) (b : Byte) : (s.setReg x b).reg x = b := by
  simp [State.reg_setReg]

theorem State.reg_setReg_other (s : State) {x r : Nibble} (b : Byte) (h : r ≠ x) : (s.setReg x b).reg r = s.reg r := by
  simp [State.reg_setReg, h]

/-- With `x` VF itself the flag stays (43_alu.md R132). -/
theorem State.reg_setRegFlag (s : State) (x r : Nibble) (b c : Byte) :
    (s.setRegFlag x b c).reg r = if r = vf then c else if r = x then b else s.reg r := by
  simp only [State.setRegFlag, State.reg_setReg]

theorem State.draw_reg (s : State) (ps : List Nat) (r : Nibble) :
    (s.draw ps).reg r = if r = vf then collisionFlag (drawPixels s.fb false ps).2 else s.reg r := by
  have : (s.draw ps).reg r = (s.setReg vf (collisionFlag (drawPixels s.fb false ps).2)).reg r := rfl
  rw [this, State.reg_setReg]

theorem State.endWait_reg (s : State) (k : Nat) (r : Nibble) :
    (s.endWait k).reg r = if r = s.waitx then BitVec.ofNat 8 k else s.reg r := by
  have : (s.endWait k).reg r = (s.setReg s.waitx (BitVec.ofNat 8 k)).reg r := rfl
  rw [this, State.reg_setReg]

/-- Registers loaded from number `k` up: number `k + j` holds the list's byte `j`, every other register its old value. -/
theorem State.reg_setRegsFrom (bs : List Byte) (s : State) (k : Nat) (h : k + bs.length ≤ 16) (r : Nibble) :
    (s.setRegsFrom k bs).reg r = if k ≤ r.toNat then bs.getD (r.toNat - k) (s.reg r) else s.reg r := by
  induction bs generalizing s k with
  | nil => simp [State.setRegsFrom]
  | cons b bs ih =>
    have hk : k < 16 := by simp at h; omega
    have ht : (BitVec.ofNat 4 k).toNat = k := by simp; omega
    rw [State.setRegsFrom, ih _ _ (by simp at h; omega), State.reg_setReg]
    have hr : r = BitVec.ofNat 4 k ↔ r.toNat = k :=
      ⟨fun e => by rw [e, ht], fun e => BitVec.eq_of_toNat_eq (by rw [ht, e])⟩
    simp only [hr]
    rcases Nat.lt_trichotomy r.toNat k with hlt | heq | hgt
    · simp [show ¬ k + 1 ≤ r.toNat by omega, show ¬ k ≤ r.toNat by omega, show r.toNat ≠ k by omega]
    · simp [heq]
    · obtain ⟨d, hd⟩ : ∃ d, r.toNat - k = d + 1 := ⟨r.toNat - k - 1, by omega⟩
      have hd' : r.toNat - (k + 1) = d := by omega
      simp [show k + 1 ≤ r.toNat by omega, show k ≤ r.toNat by omega, show r.toNat ≠ k by omega, hd, hd']

/-- Loading registers touches nothing but registers. -/
theorem State.setRegsFrom_eq (bs : List Byte) (s : State) (k : Nat) :
    s.setRegsFrom k bs = { s with v := (s.setRegsFrom k bs).v } := by
  induction bs generalizing s k with
  | nil => rfl
  | cons b bs ih => rw [State.setRegsFrom, ih]; rfl

@[simp] theorem State.regsUpTo_length (s : State) (x : Nibble) : (s.regsUpTo x).length = x.toNat + 1 := by
  simp [State.regsUpTo, regCount]

theorem State.regsUpTo_getElem (s : State) (x r : Nibble) (h : r.toNat < (s.regsUpTo x).length) :
    (s.regsUpTo x)[r.toNat] = s.reg r := by
  simp [State.regsUpTo]

@[simp] theorem State.memReadList_length (s : State) (a n : Nat) : (s.memReadList a n).length = n := by
  simp [State.memReadList]

theorem State.memReadList_getElem (s : State) (a n k : Nat) (h : k < (s.memReadList a n).length) :
    (s.memReadList a n)[k] = s.memRead (a + k) := by
  simp [State.memReadList]

end Sys2Proof.Machine
end

