-- ==== Sys2Proof/Laws/Exec.lean ====
section
/-! SUPPORT. What each shared operation of the meanings can do, said once: the bound check, the stack, the stores and loads at I, the skips
on a key, the draw. Callers cite these instead of unfolding the operation. -/

namespace Sys2Proof.Machine

/-! ### The bound check -/

theorem firstOutside_eq_none {base n : Nat} : firstOutside base n = none ↔ n = 0 ∨ base + n - 1 ≤ 0xFFF := by
  unfold firstOutside
  split
  · simp_all
  · split <;> simp_all [Config.memTop]

theorem firstOutside_eq_some {base n : Nat} (hn : n ≠ 0) (h : 0xFFF < base + n - 1) :
    firstOutside base n = some (max base 0x1000) := by
  have : ¬ base + n - 1 ≤ 4095 := by omega
  simp [firstOutside, hn, Config.memTop, Config.memSize, this]

/-- A recorded address lies outside MEM and is the first of the range that does. -/
theorem firstOutside_some {base n a : Nat} (h : firstOutside base n = some a) :
    0xFFF < a ∧ base ≤ a ∧ a < base + n ∧ ∀ k, base ≤ k → k < a → k ≤ 0xFFF := by
  unfold firstOutside at h
  split at h
  · cases h
  · split at h
    · cases h
    · cases h
      simp only [Config.memTop, Config.memSize] at *
      refine ⟨by omega, by omega, by omega, fun k hk hka => by omega⟩

/-! ### The call stack -/

theorem State.push_of_room (s : State) (w : Word) (h : s.sp.val < 16) :
    s.push w = some { s with stack := s.stack.set s.sp.val w, sp := ⟨s.sp.val + 1, by omega⟩ } := by
  simp [State.push, h]

theorem State.push_full (s : State) (w : Word) (h : s.sp.val = 16) : s.push w = none := by simp [State.push, h]

theorem State.pop_of_used (s : State) (h : 0 < s.sp.val) :
    s.pop = some (s.stack[s.sp.val - 1], { s with sp := ⟨s.sp.val - 1, by omega⟩ }) := by
  simp [State.pop, h]

theorem State.pop_empty (s : State) (h : s.sp.val = 0) : s.pop = none := by simp [State.pop, h]

/-! ### Faults inside an instruction -/

/-- The state after `raise OutOfBoundsAccess(space, index)` in the instruction `i`. -/
def State.faulted (s : State) (i : Instr) (space : Space) (index : Nat) : State :=
  s.takeFault (outOfBoundsRecord (some (encode i)) s.instrAddr space index)

theorem State.raiseOutOfBounds_eq (s : State) (i : Instr) (space : Space) (index : Nat) :
    s.raiseOutOfBounds i space index = .next (s.faulted i space index) := rfl

@[simp] theorem State.faulted_v (s : State) (i : Instr) (sp : Space) (k : Nat) : (s.faulted i sp k).v = s.v := rfl
@[simp] theorem State.faulted_i (s : State) (i : Instr) (sp : Space) (k : Nat) : (s.faulted i sp k).i = s.i := rfl
@[simp] theorem State.faulted_pc (s : State) (i : Instr) (sp : Space) (k : Nat) : (s.faulted i sp k).pc = s.pc := rfl
@[simp] theorem State.faulted_sp (s : State) (i : Instr) (sp : Space) (k : Nat) : (s.faulted i sp k).sp = s.sp := rfl
@[simp] theorem State.faulted_stack (s : State) (i : Instr) (sp : Space) (k : Nat) : (s.faulted i sp k).stack = s.stack := rfl
@[simp] theorem State.faulted_dt (s : State) (i : Instr) (sp : Space) (k : Nat) : (s.faulted i sp k).dt = s.dt := rfl
@[simp] theorem State.faulted_st (s : State) (i : Instr) (sp : Space) (k : Nat) : (s.faulted i sp k).st = s.st := rfl
@[simp] theorem State.faulted_mem (s : State) (i : Instr) (sp : Space) (k : Nat) : (s.faulted i sp k).mem = s.mem := rfl
@[simp] theorem State.faulted_fb (s : State) (i : Instr) (sp : Space) (k : Nat) : (s.faulted i sp k).fb = s.fb := rfl
@[simp] theorem State.faulted_keys (s : State) (i : Instr) (sp : Space) (k : Nat) : (s.faulted i sp k).keys = s.keys := rfl
@[simp] theorem State.faulted_life (s : State) (i : Instr) (sp : Space) (k : Nat) : (s.faulted i sp k).life = s.life := rfl
@[simp] theorem State.faulted_runTmr (s : State) (i : Instr) (sp : Space) (k : Nat) : (s.faulted i sp k).runTmr = s.runTmr := rfl
@[simp] theorem State.faulted_gate (s : State) (i : Instr) (sp : Space) (k : Nat) : (s.faulted i sp k).gate = s.gate := rfl
@[simp] theorem State.faulted_waitx (s : State) (i : Instr) (sp : Space) (k : Nat) : (s.faulted i sp k).waitx = s.waitx := rfl
@[simp] theorem State.faulted_bc (s : State) (i : Instr) (sp : Space) (k : Nat) : (s.faulted i sp k).bc = s.bc := rfl
@[simp] theorem State.faulted_tone (s : State) (i : Instr) (sp : Space) (k : Nat) : (s.faulted i sp k).tone = s.tone := rfl
@[simp] theorem State.faulted_dirty (s : State) (i : Instr) (sp : Space) (k : Nat) : (s.faulted i sp k).dirty = s.dirty := rfl
@[simp] theorem State.faulted_shown (s : State) (i : Instr) (sp : Space) (k : Nat) : (s.faulted i sp k).shown = s.shown := rfl
@[simp] theorem State.faulted_rejected (s : State) (i : Instr) (sp : Space) (k : Nat) : (s.faulted i sp k).rejected = s.rejected := rfl
@[simp] theorem State.faulted_agenda (s : State) (i : Instr) (sp : Space) (k : Nat) : (s.faulted i sp k).agenda = s.agenda := rfl
@[simp] theorem State.faulted_eventCount (s : State) (i : Instr) (sp : Space) (k : Nat) : (s.faulted i sp k).eventCount = s.eventCount := rfl
@[simp] theorem State.faulted_draws (s : State) (i : Instr) (sp : Space) (k : Nat) : (s.faulted i sp k).draws = s.draws := rfl
@[simp] theorem State.faulted_runCpu (s : State) (i : Instr) (sp : Space) (k : Nat) : (s.faulted i sp k).runCpu = false := rfl
@[simp] theorem State.faulted_reg (s : State) (i : Instr) (sp : Space) (k : Nat) (q : Nibble) : (s.faulted i sp k).reg q = s.reg q := rfl

/-- After a fault entry FAULT holds a record: the one already there, or this one. -/
theorem State.faulted_fault (s : State) (i : Instr) (sp : Space) (k : Nat) :
    (s.faulted i sp k).fault = if s.fault = none then some (outOfBoundsRecord (some (encode i)) s.instrAddr sp k) else s.fault := by
  unfold State.faulted State.takeFault
  cases s.fault <;> rfl

/-- The fault entry as a whole record update (60_exceptions.md R165). -/
theorem State.faulted_eq (s : State) (i : Instr) (space : Space) (index : Nat) :
    s.faulted i space index = { s with
      fault := if s.fault = none then some ⟨.outOfBoundsAccess, 2, some (encode i), s.pc - 2, some (space, index)⟩ else s.fault
      runCpu := false } := by
  unfold State.faulted State.takeFault outOfBoundsRecord State.instrAddr FaultKind.code
  cases s.fault <;> rfl

/-! ### The operations that may fault -/

/-- A store at I either faults with an address outside MEM or writes its bytes. -/
theorem State.storeAtI_cases (s : State) (i : Instr) (bs : List Byte) :
    (∃ a, firstOutside s.dataBase bs.length = some a ∧ s.storeAtI i bs = .next (s.faulted i .mem a)) ∨
    (firstOutside s.dataBase bs.length = none ∧ s.storeAtI i bs = .next (s.memWriteList s.dataBase bs)) := by
  unfold State.storeAtI
  cases h : firstOutside s.dataBase bs.length with
  | none => exact .inr ⟨rfl, rfl⟩
  | some a => exact .inl ⟨a, rfl, rfl⟩

theorem execLoadRegs_cases (x : Nibble) (s : State) :
    (∃ a, firstOutside s.dataBase (regCount x) = some a ∧ execLoadRegs x s = .next (s.faulted (.loadRegs x) .mem a)) ∨
    (firstOutside s.dataBase (regCount x) = none ∧
      execLoadRegs x s = .next (s.setRegsFrom 0 (s.memReadList s.dataBase (regCount x)))) := by
  unfold execLoadRegs
  cases h : firstOutside s.dataBase (regCount x) with
  | none => exact .inr ⟨rfl, rfl⟩
  | some a => exact .inl ⟨a, rfl, rfl⟩

/-- A skip on a key either faults with an index above 15 or skips on the key's level. -/
theorem State.skipOnKey_cases (s : State) (i : Instr) (x : Nibble) (down : Bool) :
    (16 ≤ (s.reg x).toNat ∧ s.skipOnKey i x down = .next (s.faulted i .key (s.reg x).toNat)) ∨
    ((s.reg x).toNat < 16 ∧ s.skipOnKey i x down = .next (s.skipIf (s.key (s.reg x).toNat == down))) := by
  unfold State.skipOnKey legalKey Config.numKeys
  by_cases h : (s.reg x).toNat < 16
  · exact .inr ⟨h, by simp [h]⟩
  · exact .inl ⟨by omega, by simp [h, State.raiseOutOfBounds_eq]⟩

theorem execRet_cases (s : State) :
    (s.sp.val = 0 ∧ execRet s = .next (s.faulted .ret .stack 0)) ∨
    (∃ h : 0 < s.sp.val, execRet s = .next { s with sp := ⟨s.sp.val - 1, by omega⟩, pc := s.stack[s.sp.val - 1] }) := by
  by_cases h : s.sp.val = 0
  · exact .inl ⟨h, by simp [execRet, State.pop_empty s h, State.raiseOutOfBounds_eq, h]⟩
  · exact .inr ⟨by omega, by simp [execRet, State.pop_of_used s (by omega), State.setPc]⟩

theorem execCall_cases (nnn : Addr12) (s : State) :
    (s.sp.val = 16 ∧ execCall nnn s = .next (s.faulted (.call nnn) .stack 16)) ∨
    (∃ h : s.sp.val < 16, execCall nnn s = .next
      { s with stack := s.stack.set s.sp.val s.pc, sp := ⟨s.sp.val + 1, by omega⟩, pc := addrOperand nnn }) := by
  by_cases h : s.sp.val = 16
  · exact .inl ⟨h, by simp [execCall, State.push_full s s.pc h, State.raiseOutOfBounds_eq, h]⟩
  · exact .inr ⟨by omega, by simp [execCall, State.push_of_room s s.pc (by omega), State.setPc]⟩

/-- A draw faults on memory, or faults on the first pixel past the framebuffer, or writes. -/
theorem execDrw_cases (x y n : Nibble) (s : State) :
    (∃ a, firstOutside s.dataBase n.toNat = some a ∧ execDrw x y n s = .next (s.faulted (.drw x y n) .mem a)) ∨
    (∃ p, firstOutside s.dataBase n.toNat = none ∧ (s.drawnPixels x y n).find? (fun p => decide (Config.fbSize ≤ p)) = some p ∧
      2048 ≤ p ∧ execDrw x y n s = .next (s.faulted (.drw x y n) .fb p)) ∨
    (firstOutside s.dataBase n.toNat = none ∧ (∀ p ∈ s.drawnPixels x y n, p < 2048) ∧
      execDrw x y n s = .next (s.draw (s.drawnPixels x y n))) := by
  unfold execDrw
  cases h : firstOutside s.dataBase n.toNat with
  | some a => exact .inl ⟨a, rfl, rfl⟩
  | none =>
    cases hf : (s.drawnPixels x y n).find? (fun p => decide (Config.fbSize ≤ p)) with
    | some p => exact .inr (.inl ⟨p, rfl, rfl, of_decide_eq_true (List.find?_some (p := fun p => decide (Config.fbSize ≤ p)) hf), rfl⟩)
    | none =>
      refine .inr (.inr ⟨rfl, fun p hp => ?_, rfl⟩)
      exact Nat.lt_of_not_le fun hle => List.find?_eq_none.mp hf p hp (decide_eq_true (p := Config.fbSize ≤ p) hle)

/-! ### The pixels of a sprite -/

theorem mem_spritePixels (rows : List Byte) (vx vy : Byte) (r₀ p : Nat) :
    p ∈ spritePixels vx vy r₀ rows ↔
      ∃ (r c : Nat) (h : r < rows.length), c < 8 ∧ spriteBit rows[r] c = true ∧ p = pixelIndex vx vy (r₀ + r) c := by
  induction rows generalizing r₀ with
  | nil => simp [spritePixels]
  | cons row rows ih =>
    simp only [spritePixels, List.mem_append, List.mem_map, setColumns, List.mem_filter, List.mem_range, ih]
    constructor
    · rintro (⟨c, ⟨hc, hb⟩, rfl⟩ | ⟨r, c, h, hc, hb, rfl⟩)
      · exact ⟨0, c, by simp, hc, hb, rfl⟩
      · exact ⟨r + 1, c, by simpa using h, hc, by simpa using hb, by rw [show r₀ + (r + 1) = r₀ + 1 + r by omega]⟩
    · rintro ⟨r, c, h, hc, hb, rfl⟩
      cases r with
      | zero => exact .inl ⟨c, ⟨hc, by simpa using hb⟩, rfl⟩
      | succ r =>
        exact .inr ⟨r, c, by simpa using h, hc, by simpa using hb, by rw [show r₀ + (r + 1) = r₀ + 1 + r by omega]⟩

/-- Two different positions of one sprite never name the same pixel (40_display.md R91). -/
theorem pixelIndex_injective {vx vy : Byte} {r c r' c' : Nat} (hc : c < 8) (hc' : c' < 8)
    (h : pixelIndex vx vy r c = pixelIndex vx vy r' c') : r = r' ∧ c = c' := by
  unfold pixelIndex Config.fbWidth at h
  omega

theorem spritePixels_nodup (rows : List Byte) (vx vy : Byte) (r₀ : Nat) : (spritePixels vx vy r₀ rows).Nodup := by
  induction rows generalizing r₀ with
  | nil => simp [spritePixels]
  | cons row rows ih =>
    rw [spritePixels, List.nodup_append]
    refine ⟨?_, ih _, ?_⟩
    · refine List.Nodup.map_on ?_ (List.nodup_range.filter _)
      intro c hc c' hc' h
      simp only [setColumns, List.mem_filter, List.mem_range] at hc hc'
      exact (pixelIndex_injective hc.1 hc'.1 h).2
    · intro p hp q hq hpq
      subst hpq
      simp only [setColumns, List.mem_map, List.mem_filter, List.mem_range] at hp
      obtain ⟨c, ⟨hc, -⟩, rfl⟩ := hp
      obtain ⟨r, c', -, hc', -, he⟩ := (mem_spritePixels ..).mp hq
      have := (pixelIndex_injective hc hc' he).1
      omega

/-- Pixel `p` of a framebuffer with pixel `q` toggled. -/
theorem Framebuffer.get_toggle (fb : Framebuffer) {q : Nat} (hq : q < 2048) (p : Nat) :
    Framebuffer.get (Framebuffer.toggle fb q) p = (Framebuffer.get fb p ^^ decide (p = q)) := by
  unfold Framebuffer.get Framebuffer.toggle
  rw [BitVec.getLsbD_xor, BitVec.getLsbD_shiftLeft]
  congr 1
  by_cases h : p = q
  · subst h; simp [hq]
  · simp [h]
    intro _ hqp
    have : p - q ≠ 0 := by omega
    simp [this]

/-- The write pass toggles exactly the listed pixels, each once, and reports whether one of them was on. -/
theorem drawPixels_spec (ps : List Nat) (fb : Framebuffer) (hit : Bool) (hd : ps.Nodup) (hb : ∀ p ∈ ps, p < 2048) :
    (∀ p, Framebuffer.get (drawPixels fb hit ps).1 p = (Framebuffer.get fb p ^^ decide (p ∈ ps))) ∧
    (drawPixels fb hit ps).2 = (hit || ps.any (Framebuffer.get fb)) := by
  induction ps generalizing fb hit with
  | nil => simp [drawPixels]
  | cons q ps ih =>
    obtain ⟨hq, hps⟩ := List.nodup_cons.mp hd
    have hq2 : q < 2048 := hb q (by simp)
    obtain ⟨h1, h2⟩ := ih (Framebuffer.toggle fb q) (hit || Framebuffer.get fb q) hps (fun p hp => hb p (by simp [hp]))
    constructor
    · intro p
      rw [drawPixels, h1, Framebuffer.get_toggle fb hq2]
      by_cases hp : p = q
      · subst hp; simp [hq]
      · simp [hp]
    · rw [drawPixels, h2]
      have : ps.any (Framebuffer.get (Framebuffer.toggle fb q)) = ps.any (Framebuffer.get fb) := by
        rw [Bool.eq_iff_iff]
        simp only [List.any_eq_true]
        constructor <;> rintro ⟨p, hp, hg⟩ <;> refine ⟨p, hp, ?_⟩
        · rw [Framebuffer.get_toggle fb hq2] at hg
          simpa [show p ≠ q from fun e => hq (e ▸ hp)] using hg
        · rw [Framebuffer.get_toggle fb hq2]
          simpa [show p ≠ q from fun e => hq (e ▸ hp)] using hg
      simp [this, Bool.or_assoc]

/-! ### Everything an instruction can do -/

/-- The index lies outside its space, one of the four an instruction can reach: the fetch and the load raise theirs elsewhere
(60_exceptions.md R162). -/
def OutsideSpace : Space → Nat → Prop
  | .fetch, _ => False
  | .mem, k => 0xFFF < k
  | .stack, k => k = 0 ∨ k = 16
  | .fb, k => 2047 < k
  | .key, k => 15 < k
  | .load, _ => False

/-- `t` is the instruction's own effect on `s`, without a fault. -/
def OwnEffect (s t : State) : Instr → Prop
  | .cls => t = { s with fb := 0, dirty := true }
  | .ret => ∃ h : 0 < s.sp.val, t = { s with sp := ⟨s.sp.val - 1, by omega⟩, pc := s.stack[s.sp.val - 1] }
  | .jp nnn => t = s.setPc (addrOperand nnn)
  | .call nnn => ∃ h : s.sp.val < 16,
      t = { s with stack := s.stack.set s.sp.val s.pc, sp := ⟨s.sp.val + 1, by omega⟩, pc := addrOperand nnn }
  | .seImm _ _ => ∃ c, t = s.skipIf c
  | .sneImm _ _ => ∃ c, t = s.skipIf c
  | .seReg _ _ => ∃ c, t = s.skipIf c
  | .ldImm x nn => t = s.setReg x nn
  | .addImm x nn => t = s.setReg x (s.reg x + nn)
  | .ldReg x y => t = s.setReg x (s.reg y)
  | .orReg x y => t = s.setReg x (s.reg x ||| s.reg y)
  | .andReg x y => t = s.setReg x (s.reg x &&& s.reg y)
  | .xorReg x y => t = s.setReg x (s.reg x ^^^ s.reg y)
  | .addReg x y => t = s.setRegFlag x (s.reg x + s.reg y) (carryFlag (s.reg x) (s.reg y))
  | .subReg x y => t = s.setRegFlag x (s.reg x - s.reg y) (greaterFlag (s.reg x) (s.reg y))
  | .shr x _ => t = s.setRegFlag x (s.reg x >>> 1) (lowBitFlag (s.reg x))
  | .shl x _ => t = s.setRegFlag x (s.reg x <<< 1) (highBitFlag (s.reg x))
  | .sneReg _ _ => ∃ c, t = s.skipIf c
  | .ldI nnn => t = s.setI (addrOperand nnn)
  | .jpV0 nnn => t = s.setPc (addrOperand nnn + regOperand (s.reg 0))
  | .rnd x nn => t = { (s.setReg x (Config.rnd s.draws &&& nn)) with draws := s.draws + 1 }
  | .drw x y n => (∀ p ∈ s.drawnPixels x y n, p < 2048) ∧ t = s.draw (s.drawnPixels x y n)
  | .skp _ => ∃ c, t = s.skipIf c
  | .sknp _ => ∃ c, t = s.skipIf c
  | .ldVxDt x => t = s.setReg x s.dt
  | .ldVxK x => t = { s with waitx := x, gate := .awaitingKey }
  | .ldDtVx x => t = { s with dt := s.reg x }
  | .ldStVx x => t = { s with st := s.reg x }
  | .addI x => t = s.setI (s.i + regOperand (s.reg x))
  | .ldF x => t = s.setI (glyphAddr (s.reg x))
  | .ldB x => s.i.toNat + 3 ≤ 4096 ∧ t = s.memWriteList s.i.toNat (decimalDigits (s.reg x))
  | .storeRegs x => s.i.toNat + (x.toNat + 1) ≤ 4096 ∧ t = s.memWriteList s.i.toNat (s.regsUpTo x)
  | .loadRegs x => s.i.toNat + (x.toNat + 1) ≤ 4096 ∧ t = s.setRegsFrom 0 (s.memReadList s.i.toNat (x.toNat + 1))

/-- Every instruction answers a next state: its fault entry, with an index outside the space it names, or its own effect. -/
theorem exec_cases (i : Instr) (s : State) :
    (∃ space k, OutsideSpace space k ∧ exec i s = .next (s.faulted i space k)) ∨ ∃ t, exec i s = .next t ∧ OwnEffect s t i := by
  have room {n : Nat} (hn : n ≠ 0) (h : firstOutside s.dataBase n = none) : s.i.toNat + n ≤ 4096 := by
    rcases firstOutside_eq_none.mp h with h | h
    · exact absurd h hn
    · simp only [State.dataBase] at h; omega
  cases i with
  | ret =>
    rcases execRet_cases s with ⟨-, h⟩ | ⟨hp, h⟩
    · exact .inl ⟨.stack, 0, .inl rfl, h⟩
    · exact .inr ⟨_, h, hp, rfl⟩
  | call nnn =>
    rcases execCall_cases nnn s with ⟨-, h⟩ | ⟨hp, h⟩
    · exact .inl ⟨.stack, 16, .inr rfl, h⟩
    · exact .inr ⟨_, h, hp, rfl⟩
  | drw x y n =>
    rcases execDrw_cases x y n s with ⟨a, ha, h⟩ | ⟨p, -, -, hp, h⟩ | ⟨-, hp, h⟩
    · exact .inl ⟨.mem, a, (firstOutside_some ha).1, h⟩
    · exact .inl ⟨.fb, p, hp, h⟩
    · exact .inr ⟨_, h, hp, rfl⟩
  | skp x =>
    rcases s.skipOnKey_cases (.skp x) x true with ⟨hk, h⟩ | ⟨-, h⟩
    · exact .inl ⟨.key, _, hk, h⟩
    · exact .inr ⟨_, h, _, rfl⟩
  | sknp x =>
    rcases s.skipOnKey_cases (.sknp x) x false with ⟨hk, h⟩ | ⟨-, h⟩
    · exact .inl ⟨.key, _, hk, h⟩
    · exact .inr ⟨_, h, _, rfl⟩
  | ldB x =>
    rcases s.storeAtI_cases (.ldB x) (decimalDigits (s.reg x)) with ⟨a, ha, h⟩ | ⟨hn, h⟩
    · exact .inl ⟨.mem, a, (firstOutside_some ha).1, h⟩
    · exact .inr ⟨_, h, room (by simp) hn, rfl⟩
  | storeRegs x =>
    rcases s.storeAtI_cases (.storeRegs x) (s.regsUpTo x) with ⟨a, ha, h⟩ | ⟨hn, h⟩
    · exact .inl ⟨.mem, a, (firstOutside_some ha).1, h⟩
    · exact .inr ⟨_, h, by simpa using room (by simp) hn, rfl⟩
  | loadRegs x =>
    rcases execLoadRegs_cases x s with ⟨a, ha, h⟩ | ⟨hn, h⟩
    · exact .inl ⟨.mem, a, (firstOutside_some ha).1, h⟩
    · exact .inr ⟨_, h, by simpa [regCount] using room (by simp [regCount]) hn, rfl⟩
  | seImm x nn => exact .inr ⟨_, rfl, _, rfl⟩
  | sneImm x nn => exact .inr ⟨_, rfl, _, rfl⟩
  | seReg x y => exact .inr ⟨_, rfl, _, rfl⟩
  | sneReg x y => exact .inr ⟨_, rfl, _, rfl⟩
  | _ => exact .inr ⟨_, rfl, rfl⟩

/-- The same of a next state that is given. -/
theorem exec_next_cases {i : Instr} {s t : State} (h : exec i s = .next t) :
    (∃ space k, OutsideSpace space k ∧ t = s.faulted i space k) ∨ OwnEffect s t i := by
  rcases exec_cases i s with ⟨sp, k, ho, he⟩ | ⟨u, he, ho⟩
  · rw [he] at h; injection h with h; exact .inl ⟨sp, k, ho, h.symm⟩
  · rw [he] at h; injection h with h; exact .inr (h ▸ ho)

end Sys2Proof.Machine
end

