-- ==== Sys2Proof/Laws/Fields.lean ====
section
/-! SUPPORT. The bit fields of a word put together from placed fields (30_encoding.md R72, R84), said once per field. -/

namespace Sys2Proof

@[simp] theorem fieldOp_or (a b : Word) : fieldOp (a ||| b) = fieldOp a ||| fieldOp b := by
  simp [fieldOp, BitVec.extractLsb'_or]

@[simp] theorem fieldX_or (a b : Word) : fieldX (a ||| b) = fieldX a ||| fieldX b := by
  simp [fieldX, BitVec.extractLsb'_or]

@[simp] theorem fieldY_or (a b : Word) : fieldY (a ||| b) = fieldY a ||| fieldY b := by
  simp [fieldY, BitVec.extractLsb'_or]

@[simp] theorem fieldN_or (a b : Word) : fieldN (a ||| b) = fieldN a ||| fieldN b := by
  simp [fieldN, BitVec.extractLsb'_or]

@[simp] theorem fieldNN_or (a b : Word) : fieldNN (a ||| b) = fieldNN a ||| fieldNN b := by
  simp [fieldNN, BitVec.extractLsb'_or]

@[simp] theorem fieldNNN_or (a b : Word) : fieldNNN (a ||| b) = fieldNNN a ||| fieldNNN b := by
  simp [fieldNNN, BitVec.extractLsb'_or]

@[simp] theorem fieldOp_placeX : ∀ x : Nibble, fieldOp (placeX x) = 0 := by decide
@[simp] theorem fieldX_placeX : ∀ x : Nibble, fieldX (placeX x) = x := by decide
@[simp] theorem fieldY_placeX : ∀ x : Nibble, fieldY (placeX x) = 0 := by decide
@[simp] theorem fieldN_placeX : ∀ x : Nibble, fieldN (placeX x) = 0 := by decide
@[simp] theorem fieldNN_placeX : ∀ x : Nibble, fieldNN (placeX x) = 0 := by decide

@[simp] theorem fieldOp_placeY : ∀ y : Nibble, fieldOp (placeY y) = 0 := by decide
@[simp] theorem fieldX_placeY : ∀ y : Nibble, fieldX (placeY y) = 0 := by decide
@[simp] theorem fieldY_placeY : ∀ y : Nibble, fieldY (placeY y) = y := by decide
@[simp] theorem fieldN_placeY : ∀ y : Nibble, fieldN (placeY y) = 0 := by decide

@[simp] theorem fieldOp_nibble : ∀ n : Nibble, fieldOp (n.setWidth 16) = 0 := by decide
@[simp] theorem fieldX_nibble : ∀ n : Nibble, fieldX (n.setWidth 16) = 0 := by decide
@[simp] theorem fieldY_nibble : ∀ n : Nibble, fieldY (n.setWidth 16) = 0 := by decide
@[simp] theorem fieldN_nibble : ∀ n : Nibble, fieldN (n.setWidth 16) = n := by decide

@[simp] theorem fieldOp_byte (b : Byte) : fieldOp (b.setWidth 16) = 0 := by
  ext k hk; simp [fieldOp]; intro _; exact BitVec.getLsbD_of_ge _ _ (by omega)

@[simp] theorem fieldX_byte (b : Byte) : fieldX (b.setWidth 16) = 0 := by
  ext k hk; simp [fieldX]

@[simp] theorem fieldNN_byte (b : Byte) : fieldNN (b.setWidth 16) = b := by
  ext k hk; simp [fieldNN, show k < 16 by omega, BitVec.getLsbD_eq_getElem hk]

@[simp] theorem fieldOp_addr (a : Addr12) : fieldOp (a.setWidth 16) = 0 := by
  ext k hk; simp [fieldOp]

@[simp] theorem fieldNNN_addr (a : Addr12) : fieldNNN (a.setWidth 16) = a := by
  ext k hk; simp [fieldNNN, show k < 16 by omega, BitVec.getLsbD_eq_getElem hk]

end Sys2Proof
end

