-- ==== Sys2Proof/Laws/PerInstr.lean ====
section
/-! SUPPORT. For every instruction: its row stands in the opcode map and its word has the row's fixed digits (30_encoding.md R75,
R84), one lemma per constructor. -/

namespace Sys2Proof.Laws.EncodeFitsRow

/-- The instruction's row is one of the opcode map's, and its word fits it. -/
def Statement (i : Instr) : Prop := i.row ∈ opcodeRows ∧ i.row.fits (encode i) = true

theorem low_bits_of_op : ∀ k < 12, (0xF000#16).getLsbD k = false := by decide

theorem byte_and_op (b : Byte) : b.setWidth 16 &&& 0xF000#16 = 0#16 := by
  apply BitVec.eq_of_getLsbD_eq
  intro k hk
  rcases Nat.lt_or_ge k 8 with h | h
  · simp [low_bits_of_op k (by omega)]
  · simp [BitVec.getLsbD_of_ge b k h]

theorem addr_and_op (a : Addr12) : a.setWidth 16 &&& 0xF000#16 = 0#16 := by
  apply BitVec.eq_of_getLsbD_eq
  intro k hk
  rcases Nat.lt_or_ge k 12 with h | h
  · simp [low_bits_of_op k h]
  · simp [BitVec.getLsbD_of_ge a k h]

theorem placeX_and_op : ∀ x : Nibble, placeX x &&& 0xF000#16 = 0#16 := by decide

theorem fits_encodeXB (p : Word) (x : Nibble) (nn : Byte) (h : p &&& 0xF000#16 = p) :
    (OpcodeRow.mk 0xF000 p).fits (encodeXB p x nn) = true := by
  simp [OpcodeRow.fits, encodeXB, BitVec.and_comm _ 0xF000#16, BitVec.and_or_distrib_left] at *
  simp [BitVec.and_comm 0xF000#16, byte_and_op, placeX_and_op] at *
  exact h

theorem fits_encodeA (p : Word) (a : Addr12) (h : p &&& 0xF000#16 = p) :
    (OpcodeRow.mk 0xF000 p).fits (encodeA p a) = true := by
  simp [OpcodeRow.fits, encodeA, BitVec.and_comm _ 0xF000#16, BitVec.and_or_distrib_left] at *
  simp [BitVec.and_comm 0xF000#16, addr_and_op] at *
  exact h

theorem placeY_and_op : ∀ y : Nibble, placeY y &&& 0xF000#16 = 0#16 := by decide

theorem nibble_and_op : ∀ n : Nibble, n.setWidth 16 &&& 0xF000#16 = 0#16 := by decide

theorem fits_encodeXYN_op (x y n : Nibble) : (OpcodeRow.mk 0xF000 0xD000).fits (encodeXYN 0xD000 x y n) = true := by
  simp [OpcodeRow.fits, encodeXYN, BitVec.and_comm _ 0xF000#16, BitVec.and_or_distrib_left]
  simp [BitVec.and_comm 0xF000#16, placeX_and_op, placeY_and_op, nibble_and_op]

theorem cls : Statement .cls := ⟨by decide, by decide⟩

theorem ret : Statement .ret := ⟨by decide, by decide⟩

theorem jp (nnn : Addr12) : Statement (.jp nnn) := ⟨by simp [Instr.row, opcodeRows], fits_encodeA _ nnn (by decide)⟩

theorem call (nnn : Addr12) : Statement (.call nnn) := ⟨by simp [Instr.row, opcodeRows], fits_encodeA _ nnn (by decide)⟩

theorem seImm (x : Nibble) (nn : Byte) : Statement (.seImm x nn) :=
  ⟨by simp [Instr.row, opcodeRows], fits_encodeXB _ x nn (by decide)⟩

theorem sneImm (x : Nibble) (nn : Byte) : Statement (.sneImm x nn) :=
  ⟨by simp [Instr.row, opcodeRows], fits_encodeXB _ x nn (by decide)⟩

theorem seReg (x y : Nibble) : Statement (.seReg x y) :=
  ⟨by simp [Instr.row, opcodeRows], by revert x y; decide⟩

theorem ldImm (x : Nibble) (nn : Byte) : Statement (.ldImm x nn) :=
  ⟨by simp [Instr.row, opcodeRows], fits_encodeXB _ x nn (by decide)⟩

theorem addImm (x : Nibble) (nn : Byte) : Statement (.addImm x nn) :=
  ⟨by simp [Instr.row, opcodeRows], fits_encodeXB _ x nn (by decide)⟩

theorem ldReg (x y : Nibble) : Statement (.ldReg x y) :=
  ⟨by simp [Instr.row, opcodeRows], by revert x y; decide⟩

theorem orReg (x y : Nibble) : Statement (.orReg x y) :=
  ⟨by simp [Instr.row, opcodeRows], by revert x y; decide⟩

theorem andReg (x y : Nibble) : Statement (.andReg x y) :=
  ⟨by simp [Instr.row, opcodeRows], by revert x y; decide⟩

theorem xorReg (x y : Nibble) : Statement (.xorReg x y) :=
  ⟨by simp [Instr.row, opcodeRows], by revert x y; decide⟩

theorem addReg (x y : Nibble) : Statement (.addReg x y) :=
  ⟨by simp [Instr.row, opcodeRows], by revert x y; decide⟩

theorem subReg (x y : Nibble) : Statement (.subReg x y) :=
  ⟨by simp [Instr.row, opcodeRows], by revert x y; decide⟩

theorem shr (x y : Nibble) : Statement (.shr x y) :=
  ⟨by simp [Instr.row, opcodeRows], by revert x y; decide⟩

theorem shl (x y : Nibble) : Statement (.shl x y) :=
  ⟨by simp [Instr.row, opcodeRows], by revert x y; decide⟩

theorem sneReg (x y : Nibble) : Statement (.sneReg x y) :=
  ⟨by simp [Instr.row, opcodeRows], by revert x y; decide⟩

theorem ldI (nnn : Addr12) : Statement (.ldI nnn) := ⟨by simp [Instr.row, opcodeRows], fits_encodeA _ nnn (by decide)⟩

theorem jpV0 (nnn : Addr12) : Statement (.jpV0 nnn) := ⟨by simp [Instr.row, opcodeRows], fits_encodeA _ nnn (by decide)⟩

theorem rnd (x : Nibble) (nn : Byte) : Statement (.rnd x nn) :=
  ⟨by simp [Instr.row, opcodeRows], fits_encodeXB _ x nn (by decide)⟩

theorem drw (x y n : Nibble) : Statement (.drw x y n) :=
  ⟨by simp [Instr.row, opcodeRows], fits_encodeXYN_op x y n⟩

theorem skp (x : Nibble) : Statement (.skp x) := ⟨by simp [Instr.row, opcodeRows], by revert x; decide⟩

theorem sknp (x : Nibble) : Statement (.sknp x) := ⟨by simp [Instr.row, opcodeRows], by revert x; decide⟩

theorem ldVxDt (x : Nibble) : Statement (.ldVxDt x) := ⟨by simp [Instr.row, opcodeRows], by revert x; decide⟩

theorem ldVxK (x : Nibble) : Statement (.ldVxK x) := ⟨by simp [Instr.row, opcodeRows], by revert x; decide⟩

theorem ldDtVx (x : Nibble) : Statement (.ldDtVx x) := ⟨by simp [Instr.row, opcodeRows], by revert x; decide⟩

theorem ldStVx (x : Nibble) : Statement (.ldStVx x) := ⟨by simp [Instr.row, opcodeRows], by revert x; decide⟩

theorem addI (x : Nibble) : Statement (.addI x) := ⟨by simp [Instr.row, opcodeRows], by revert x; decide⟩

theorem ldF (x : Nibble) : Statement (.ldF x) := ⟨by simp [Instr.row, opcodeRows], by revert x; decide⟩

theorem ldB (x : Nibble) : Statement (.ldB x) := ⟨by simp [Instr.row, opcodeRows], by revert x; decide⟩

theorem storeRegs (x : Nibble) : Statement (.storeRegs x) := ⟨by simp [Instr.row, opcodeRows], by revert x; decide⟩

theorem loadRegs (x : Nibble) : Statement (.loadRegs x) := ⟨by simp [Instr.row, opcodeRows], by revert x; decide⟩

end Sys2Proof.Laws.EncodeFitsRow
end

