-- ==== Sys2Proof/Laws/Step.lean ====
section
/-! SUPPORT. Everything a CPU cycle and a step can do, said once: proofs about all steps are case splits on these lemmas. -/

namespace Sys2Proof.Machine

theorem State.canFetch_iff (s : State) : s.canFetch = true ↔ s.pc.toNat ≤ 0xFFE := by
  simp [State.canFetch, Config.memTop]; omega

/-- The end of a CPU cycle that gave a next state: a fetch fault, an unknown opcode, or an instruction's outcome, counted and flushed
if it did not fault (30_encoding.md R70). -/
theorem cpuCycle_cases {s t : State} (h : cpuCycle s = .next t) :
    (s.canFetch = false ∧ t = s.clearDirty.takeFault (outOfBoundsRecord none s.pc .fetch s.pc.toNat)) ∨
    (s.canFetch = true ∧ (∃ e, decode s.fetchWord = .error e) ∧
      t = s.fetched.takeFault (unknownOpcodeRecord s.fetchWord s.pc)) ∨
    (s.canFetch = true ∧ ∃ i u, decode s.fetchWord = .ok i ∧ exec i s.fetched = .next u ∧
      t = if u.runCpu then u.completeCycle else u) := by
  unfold cpuCycle at h
  by_cases hc : s.canFetch = true
  · rw [if_pos hc] at h
    cases hd : decode s.fetchWord with
    | error e =>
      rw [hd] at h
      injection h with h
      exact .inr (.inl ⟨hc, ⟨e, rfl⟩, h.symm⟩)
    | ok i =>
      rw [hd] at h
      rcases exec_cases i s.fetched with ⟨sp, k, -, he⟩ | ⟨u, he, -⟩ <;>
      · simp only [he, endCycle] at h
        injection h with h
        exact .inr (.inr ⟨hc, i, _, rfl, he, h.symm⟩)
  · rw [if_neg hc] at h
    injection h with h
    exact .inl ⟨by simpa using hc, h.symm⟩

/-- A CPU cycle always answers a next state. -/
theorem cpuCycle_total (s : State) : ∃ t, cpuCycle s = .next t := by
  unfold cpuCycle
  split
  · split
    · rename_i i _
      rcases exec_cases i s.fetched with ⟨sp, k, -, he⟩ | ⟨u, he, -⟩ <;> exact ⟨_, by rw [he]; rfl⟩
    · exact ⟨_, rfl⟩
  · exact ⟨_, rfl⟩

/-- Between yield points the CPU cycle is enabled (60_exceptions.md R172, R174). -/
theorem State.cycleEnabled_of_not_atYield {s : State} (h : s.atYield = false) : s.cycleEnabled = true ∧ s.bc ≠ 0 := by
  simp only [State.atYield, Bool.or_eq_false_iff, decide_eq_false_iff_not, Bool.not_eq_false'] at h
  obtain ⟨⟨hb, hg⟩, hr⟩ := h
  refine ⟨?_, hb⟩
  have : s.gate = .running := by cases hs : s.gate <;> simp_all
  simp [State.cycleEnabled, hr, this]

/-- What an event that lands at yield points gives. -/
theorem State.atBoundary_cases {s t : State} {effect : State → State} (h : s.atBoundary effect = .next t) :
    (s.atYield = true ∧ t = effect s.takeEvent) ∨ (s.cycleEnabled = true ∧ s.bc ≠ 0 ∧ cpuCycle s = .next t) := by
  unfold State.atBoundary at h
  by_cases hy : s.atYield = true
  · rw [if_pos hy] at h
    injection h with h
    exact .inl ⟨hy, h.symm⟩
  · rw [if_neg hy] at h
    obtain ⟨h1, h2⟩ := State.cycleEnabled_of_not_atYield (by simpa using hy)
    exact .inr ⟨h1, h2, h⟩

/-- Everything a step to a next state can have been (60_exceptions.md R170). -/
theorem step_cases {s t : State} (h : step s = .next t) :
    (s.cycleEnabled = true ∧ ∃ u, (u = s ∨ u = s.takeEvent) ∧ cpuCycle u = .next t) ∨ t = s.takeEvent ∨
    (s.nextEvent = .reset ∧ t = s.takeEvent.reconstruct) ∨
    (s.life = .idle ∧ ∃ bytes, s.nextEvent = .load bytes ∧ t = s.takeEvent.load bytes) ∨
    (s.life = .idle ∧ s.nextEvent = .start ∧ t = s.takeEvent.start) ∨ (s.life ≠ .stopped ∧ s.nextEvent = .stop ∧ t = s.takeEvent.stop) ∨
    (s.runTmr = true ∧ s.nextEvent = .tick ∧ t = s.takeEvent.tick) ∨
    (s.life ≠ .stopped ∧ s.atYield = true ∧ ∃ k, s.nextEvent = .keyDown k ∧ t = s.takeEvent.keyDown k) ∨
    (s.life ≠ .stopped ∧ ∃ k, s.nextEvent = .keyUp k ∧ t = s.takeEvent.keyUp k) := by
  unfold step runEvent at h
  cases he : s.nextEvent with
  | reset => rw [he] at h; injection h with h; simp [h]
  | load bytes =>
    simp only [he] at h
    split at h
    · rename_i hl; injection h with h; simp [h, hl]
    · cases h
  | start =>
    simp only [he] at h
    split at h
    · rename_i hl; injection h with h; simp [h, hl]
    · cases h
  | stop =>
    simp only [he] at h
    split at h
    · cases h
    · rename_i hl
      rcases State.atBoundary_cases h with ⟨-, ht⟩ | ⟨hc, -, ht⟩
      · simp [ht, hl]
      · exact .inl ⟨hc, s, .inl rfl, ht⟩
  | cycle =>
    simp only [he] at h
    split at h
    · rename_i hc; exact .inl ⟨hc, _, .inr rfl, h⟩
    · injection h with h; simp [h]
  | tick =>
    simp only [he] at h
    split at h
    · rename_i hr
      rcases State.atBoundary_cases h with ⟨-, ht⟩ | ⟨hc, -, ht⟩
      · simp [ht, hr]
      · exact .inl ⟨hc, s, .inl rfl, ht⟩
    · injection h with h; simp [h]
  | keyDown k =>
    simp only [he] at h
    split at h
    · injection h with h; simp [h]
    · rename_i hl
      rcases State.atBoundary_cases h with ⟨hy, ht⟩ | ⟨hc, -, ht⟩
      · simp [ht, hl, hy]
      · exact .inl ⟨hc, s, .inl rfl, ht⟩
  | keyUp k =>
    simp only [he] at h
    split at h
    · injection h with h; simp [h]
    · rename_i hl
      rcases State.atBoundary_cases h with ⟨-, ht⟩ | ⟨hc, -, ht⟩
      · simp [ht, hl]
      · exact .inl ⟨hc, s, .inl rfl, ht⟩

end Sys2Proof.Machine
end

