-- ==== Sys2Proof/Tests/Slice0.lean ====
section
/-! SUPPORT. The model's own tests. Expected results come from 95_test_vectors.md and 30_encoding.md, row or rule cited, never from the
model; each test runs one step or one operation. At the end, for every statement that has hypotheses, states and operands that meet
them. -/

set_option maxRecDepth 8000

namespace Sys2Proof.Tests

open Sys2Proof Sys2Proof.Machine

/-! ### Small states -/

/-- The state after `reset` and `start`, a CPU cycle next, without a program. -/
def live : State := { State.reset with life := .active, runCpu := true, runTmr := true, agenda := [.cycle] }

/-- The registers named get the bytes named. -/
def regs (l : List (Nibble × Byte)) (s : State) : State := l.foldl (fun s p => s.setReg p.1 p.2) s

/-- I and the bytes from I up. -/
def atI (i : Word) (bs : List Byte) (s : State) : State := (s.memWriteList i.toNat bs).setI i

/-- The next state, if that is the outcome. -/
def nextOf (o : Host.Outcome State Fault Refusal) : Option State :=
  match o with
  | .next t => some t
  | .fault _ => none
  | .refused _ => none

/-- One step on the state with the word placed at PC. -/
def after (w : Nat) (s : State) : Option State := nextOf (step (s.withFetchWord 16 w))

/-- The state with the event next. -/
def soon (e : Event) (s : State) : State := { s with agenda := [e] }

/-- One step on the event. -/
def afterEvent (e : Event) (s : State) : Option State := nextOf (step (soon e s))

/-- A next state with a property, from a check that computes. -/
theorem exists_next {o : Host.Outcome State Fault Refusal} (p : State → Prop) [DecidablePred p]
    (h : (nextOf o).any (fun t => decide (p t)) = true) : ∃ t, o = .next t ∧ p t := by
  cases o with
  | next t => exact ⟨t, rfl, of_decide_eq_true h⟩
  | fault r => cases h
  | refused r => cases h

/-- What the fault record says of space and index. -/
def where_ (s : State) : Option (Option (Space × Nat)) := s.fault.map (·.info)

/-! ### Well-formedness (30_encoding.md R78; 60_exceptions.md R162, R163) -/

theorem test_wf_family0 : legalWord 0x00E0 = true ∧ legalWord 0x00E1 = false ∧ legalWord 0x0ABC = false := by decide
theorem test_wf_family5 : legalWord 0x5120 = true ∧ legalWord 0x5121 = false := by decide
theorem test_wf_family8 : legalWord 0x812E = true ∧ legalWord 0x8127 = false ∧ legalWord 0x812F = false := by decide
theorem test_wf_family9 : legalWord 0x9120 = true ∧ legalWord 0x912F = false := by decide
theorem test_wf_familyE : legalWord 0xE19E = true ∧ legalWord 0xE19F = false := by decide
theorem test_wf_familyF : legalWord 0xF365 = true ∧ legalWord 0xF300 = false ∧ legalWord 0xF375 = false := by decide
theorem test_wf_key : legalKey 15 = true ∧ legalKey 16 = false := by decide
theorem test_wf_rom : legalRom (List.replicate 3584 1) = true ∧ legalRom (List.replicate 3585 1) = false := by
  constructor <;> rw [legalRom, List.length_replicate] <;> rfl
theorem test_wf_event : Event.wellFormed (.keyDown 15) = true ∧ Event.wellFormed (.keyDown 16) = false ∧
    Event.wellFormed (.keyUp 16) = false := by decide

/-! ### Decoding: one word per constructor, written from the row of 30_encoding.md R76 -/

theorem test_decode_cls : decode 0b0000000011100000 = .ok .cls := by decide
theorem test_decode_ret : decode 0b0000000011101110 = .ok .ret := by decide
theorem test_decode_jp : decode 0b0001101010111100 = .ok (.jp 0xABC) := by decide
theorem test_decode_call : decode 0b0010101010111100 = .ok (.call 0xABC) := by decide
theorem test_decode_seImm : decode 0b0011101001000010 = .ok (.seImm 0xA 0x42) := by decide
theorem test_decode_sneImm : decode 0b0100101001000010 = .ok (.sneImm 0xA 0x42) := by decide
theorem test_decode_seReg : decode 0b0101000100100000 = .ok (.seReg 1 2) := by decide
theorem test_decode_ldImm : decode 0b0110101001111111 = .ok (.ldImm 0xA 0x7F) := by decide
theorem test_decode_addImm : decode 0b0111101000000001 = .ok (.addImm 0xA 0x01) := by decide
theorem test_decode_ldReg : decode 0b1000000100100000 = .ok (.ldReg 1 2) := by decide
theorem test_decode_orReg : decode 0b1000000100100001 = .ok (.orReg 1 2) := by decide
theorem test_decode_andReg : decode 0b1000000100100010 = .ok (.andReg 1 2) := by decide
theorem test_decode_xorReg : decode 0b1000000100100011 = .ok (.xorReg 1 2) := by decide
theorem test_decode_addReg : decode 0b1000000100100100 = .ok (.addReg 1 2) := by decide
theorem test_decode_subReg : decode 0b1000000100100101 = .ok (.subReg 1 2) := by decide
theorem test_decode_shr : decode 0b1000000100100110 = .ok (.shr 1 2) := by decide
theorem test_decode_shl : decode 0b1000000100101110 = .ok (.shl 1 2) := by decide
theorem test_decode_sneReg : decode 0b1001000100100000 = .ok (.sneReg 1 2) := by decide
theorem test_decode_ldI : decode 0b1010111111111110 = .ok (.ldI 0xFFE) := by decide
theorem test_decode_jpV0 : decode 0b1011000100100011 = .ok (.jpV0 0x123) := by decide
theorem test_decode_rnd : decode 0b1100001100001111 = .ok (.rnd 3 0x0F) := by decide
theorem test_decode_drw : decode 0b1101000100100101 = .ok (.drw 1 2 5) := by decide
theorem test_decode_skp : decode 0b1110110010011110 = .ok (.skp 0xC) := by decide
theorem test_decode_sknp : decode 0b1110110010100001 = .ok (.sknp 0xC) := by decide
theorem test_decode_ldVxDt : decode 0b1111001000000111 = .ok (.ldVxDt 2) := by decide
theorem test_decode_ldVxK : decode 0b1111001100001010 = .ok (.ldVxK 3) := by decide
theorem test_decode_ldDtVx : decode 0b1111001000010101 = .ok (.ldDtVx 2) := by decide
theorem test_decode_ldStVx : decode 0b1111001000011000 = .ok (.ldStVx 2) := by decide
theorem test_decode_addI : decode 0b1111000100011110 = .ok (.addI 1) := by decide
theorem test_decode_ldF : decode 0b1111001100101001 = .ok (.ldF 3) := by decide
theorem test_decode_ldB : decode 0b1111001100110011 = .ok (.ldB 3) := by decide
theorem test_decode_storeRegs : decode 0b1111111101010101 = .ok (.storeRegs 0xF) := by decide
theorem test_decode_loadRegs : decode 0b1111001001100101 = .ok (.loadRegs 2) := by decide

/-- 30_encoding.md R84, the encodings of 95_test_vectors.md 2.7. -/
theorem test_encode : encode (.ldImm 3 0x7F) = 0x637F ∧ encode (.addReg 0xA 0xB) = 0x8AB4 ∧ encode (.drw 1 2 5) = 0xD125 ∧
    encode (.sknp 0xC) = 0xECA1 ∧ encode (.storeRegs 0xF) = 0xFF55 ∧ encode (.call 0x2F0) = 0x22F0 := by decide

/-! ### Display (95_test_vectors.md 2.1) -/

theorem test_cls : (after 0x00E0 { live with fb := 1#2048 <<< 65 }).map (fun t => (t.fb, t.dirty, t.pc)) =
    some (0#2048, true, 0x202#16) := by decide

/-- Row "DRW running on into the next row". -/
theorem test_drw_runs_on : (after 0xD121 (atI 0x300 [0xC0] (regs [(1, 63)] live))).map
    (fun t => (t.fb.getLsbD 63, t.fb.getLsbD 64, t.reg vf)) = some (true, true, 0#8) := by decide

/-- Row "DRW past the last pixel". -/
theorem test_drw_past_last : (after 0xD121 (atI 0x300 [0xC0] (regs [(1, 63), (2, 31)] live))).map
    (fun t => (where_ t, t.fb, t.pc)) = some (some (some (.fb, 2048)), 0#2048, 0x202#16) := by decide

/-! ### Flow (95_test_vectors.md 2.2) -/

theorem test_ret : (after 0x00EE { live with sp := 1, stack := live.stack.set 0 0x345 }).map (fun t => (t.sp.val, t.pc)) =
    some (0, 0x345#16) := by decide
theorem test_ret_empty : (after 0x00EE live).map (fun t => (where_ t, t.sp.val, t.pc)) =
    some (some (some (.stack, 0)), 0, 0x202#16) := by decide
theorem test_jp : (after 0x1ABC live).map (·.pc) = some 0xABC#16 := by decide
theorem test_call_last_slot : (after 0x2ABC { live with sp := 15 }).map (fun t => (t.stack[15], t.sp.val, t.pc)) =
    some (0x202#16, 16, 0xABC#16) := by decide
theorem test_call_full : (after 0x2ABC { live with sp := 16 }).map (fun t => (where_ t, t.sp.val, t.pc)) =
    some (some (some (.stack, 16)), 16, 0x202#16) := by decide
theorem test_jpV0_largest : (after 0xBFFF (regs [(0, 0xFF)] live)).map (fun t => (t.pc, t.fault.isSome)) =
    some (0x10FE#16, false) := by decide

/-! ### Skips (95_test_vectors.md 2.3) -/

theorem test_seImm : (after 0x3A42 (regs [(0xA, 0x42)] live)).map (·.pc) = some 0x204#16 := by decide
theorem test_seImm_different : (after 0x3A42 (regs [(0xA, 0x43)] live)).map (·.pc) = some 0x202#16 := by decide
theorem test_sneImm : (after 0x4A42 (regs [(0xA, 0x43)] live)).map (·.pc) = some 0x204#16 := by decide
theorem test_sneImm_equal : (after 0x4A42 (regs [(0xA, 0x42)] live)).map (·.pc) = some 0x202#16 := by decide
theorem test_seReg : (after 0x5120 (regs [(1, 7), (2, 7)] live)).map (·.pc) = some 0x204#16 := by decide
theorem test_seReg_different : (after 0x5120 (regs [(1, 7), (2, 8)] live)).map (·.pc) = some 0x202#16 := by decide
theorem test_sneReg : (after 0x9120 (regs [(1, 7), (2, 8)] live)).map (·.pc) = some 0x204#16 := by decide
theorem test_sneReg_equal : (after 0x9120 (regs [(1, 7), (2, 7)] live)).map (·.pc) = some 0x202#16 := by decide

/-! ### Arithmetic and logic (95_test_vectors.md 2.4) -/

theorem test_ldImm : (after 0x6A7F live).map (·.reg 0xA) = some 0x7F#8 := by decide
theorem test_addImm_wraps : (after 0x7A01 (regs [(0xA, 0xFF)] live)).map (fun t => (t.reg 0xA, t.reg vf)) = some (0x00#8, 0x00#8) := by
  decide
theorem test_ldReg : (after 0x8120 (regs [(1, 1), (2, 0x99)] live)).map (·.reg 1) = some 0x99#8 := by decide
theorem test_orReg : (after 0x8121 (regs [(1, 0xF0), (2, 0x0F), (vf, 7)] live)).map (fun t => (t.reg 1, t.reg vf)) =
    some (0xFF#8, 7#8) := by decide
theorem test_andReg : (after 0x8122 (regs [(1, 0xF3), (2, 0x35), (vf, 7)] live)).map (fun t => (t.reg 1, t.reg vf)) =
    some (0x31#8, 7#8) := by decide
theorem test_xorReg : (after 0x8123 (regs [(1, 0xF3), (2, 0x35), (vf, 7)] live)).map (fun t => (t.reg 1, t.reg vf)) =
    some (0xC6#8, 7#8) := by decide
theorem test_addReg_exactly_ff : (after 0x8124 (regs [(1, 0xF0), (2, 0x0F), (vf, 1)] live)).map (fun t => (t.reg 1, t.reg vf)) =
    some (0xFF#8, 0#8) := by decide
/-- Row "ADD, X = 0xF, carry": the sum is lost. -/
theorem test_addReg_vf : (after 0x8F14 (regs [(vf, 0xF0), (1, 0x20)] live)).map (·.reg vf) = some 1#8 := by decide
theorem test_subReg_equal : (after 0x8125 (regs [(1, 5), (2, 5), (vf, 1)] live)).map (fun t => (t.reg 1, t.reg vf)) =
    some (0#8, 0#8) := by decide
/-- Row "SUB, Y = 0xF": the old VF is subtracted. -/
theorem test_subReg_vf : (after 0x81F5 (regs [(1, 9), (vf, 3)] live)).map (fun t => (t.reg 1, t.reg vf)) = some (6#8, 1#8) := by decide
theorem test_shr : (after 0x8126 (regs [(1, 5), (2, 0xFF)] live)).map (fun t => (t.reg 1, t.reg 2, t.reg vf)) =
    some (2#8, 0xFF#8, 1#8) := by decide
theorem test_shl : (after 0x812E (regs [(1, 0x41), (2, 0xFF), (vf, 1)] live)).map (fun t => (t.reg 1, t.reg vf)) =
    some (0x82#8, 0#8) := by decide
/-- Row "RND, mask 0": the byte drawn is a free value, the mask is not. -/
theorem test_rnd_mask_zero : (after 0xC300 (regs [(3, 9)] live)).map (·.reg 3) = some 0#8 := by
  have h : (after 0xC300 (regs [(3, 9)] live)).map (·.reg 3) = some (Config.rnd 0 &&& 0#8) := by rfl
  rw [h, BitVec.and_zero]

/-! ### Index and memory (95_test_vectors.md 2.5) -/

theorem test_ldI : (after 0xAFFF live).map (·.i) = some 0x0FFF#16 := by decide
theorem test_addI_wraps : (after 0xF11E { (regs [(1, 2), (vf, 7)] live) with i := 0xFFFF }).map (fun t => (t.i, t.reg vf)) =
    some (0x0001#16, 7#8) := by decide
theorem test_ldF_no_mask : (after 0xF329 (regs [(3, 0xFF)] live)).map (·.i) = some 0x04FB#16 := by decide
theorem test_ldB_top : (after 0xF333 { (regs [(3, 0xFF)] live) with i := 0xFFD }).map (fun t => t.memReadList 0xFFD 3) =
    some [2#8, 5#8, 5#8] := by decide
theorem test_ldB_outside : (after 0xF333 { (regs [(3, 0xFF)] live) with i := 0xFFE }).map (fun t => (where_ t, t.memReadList 0xFFE 2)) =
    some (some (some (.mem, 0x1000)), [0#8, 0#8]) := by decide
theorem test_storeRegs : (after 0xF255 { (regs [(0, 0x11), (1, 0x22), (2, 0x33), (3, 0x44)] live) with i := 0x400 }).map
    (fun t => (t.memReadList 0x400 4, t.i)) = some ([0x11#8, 0x22#8, 0x33#8, 0#8], 0x400#16) := by decide
theorem test_storeRegs_outside : (after 0xF155 { (regs [(0, 0x11), (1, 0x22)] live) with i := 0xFFF }).map
    (fun t => (where_ t, t.memRead 0xFFF)) = some (some (some (.mem, 0x1000)), 0#8) := by decide
theorem test_loadRegs : (after 0xF165 (atI 0x400 [0xAB, 0xCD, 0xEF] (regs [(2, 0x77)] live))).map
    (fun t => (t.reg 0, t.reg 1, t.reg 2, t.i)) = some (0xAB#8, 0xCD#8, 0x77#8, 0x400#16) := by decide
theorem test_loadRegs_outside : (after 0xF165 (atI 0xFFF [0x11] live)).map (fun t => (where_ t, t.reg 0)) =
    some (some (some (.mem, 0x1000)), 0#8) := by decide

/-! ### Keypad, timers, events (95_test_vectors.md 2.6, S10) -/

theorem test_skp : (after 0xE19E { (regs [(1, 7)] live) with keys := live.keys.set 7 true }).map (·.pc) = some 0x204#16 := by decide
theorem test_skp_outside : (after 0xE19E (regs [(1, 0x10)] live)).map (fun t => (where_ t, t.pc)) =
    some (some (some (.key, 16)), 0x202#16) := by decide
theorem test_sknp : (after 0xE1A1 { (regs [(1, 7)] live) with keys := live.keys.set 7 true }).map (·.pc) = some 0x202#16 := by decide
theorem test_sknp_up : (after 0xE1A1 (regs [(1, 7)] live)).map (·.pc) = some 0x204#16 := by decide
theorem test_ldVxDt : (after 0xF207 { live with dt := 0x1E }).map (fun t => (t.reg 2, t.dt)) = some (0x1E#8, 0x1E#8) := by decide
theorem test_ldDtVx : (after 0xF215 (regs [(2, 0xFF)] live)).map (·.dt) = some 0xFF#8 := by decide
theorem test_ldStVx : (after 0xF218 (regs [(2, 1)] live)).map (fun t => (t.st, t.tone)) = some (1#8, false) := by decide
theorem test_ldVxK : (after 0xF30A live).map (fun t => (t.gate, t.waitx, t.pc, t.reg 3)) =
    some (.awaitingKey, 3#4, 0x202#16, 0#8) := by decide
theorem test_keyDown_ends_wait : (afterEvent (.keyDown 0xB) { live with gate := .awaitingKey, waitx := 3, bc := 1 }).map
    (fun t => (t.keys[0xB], t.reg 3, t.gate)) = some (true, 0xB#8, .running) := by decide
theorem test_keyDown_invalid : (afterEvent (.keyDown 16) { live with gate := .awaitingKey }).map (fun t => (t.keys, t.gate)) =
    some (live.keys, .awaitingKey) := by decide
/-- The tick table's second and third lines. -/
theorem test_tick_last : (afterEvent .tick { live with st := 1, tone := true }).map (fun t => (t.st, t.dt, t.tone)) =
    some (0#8, 0#8, true) := by decide
theorem test_tick_silent : (afterEvent .tick { live with tone := true }).map (fun t => (t.st, t.dt, t.tone)) =
    some (0#8, 0#8, false) := by decide

/-- 60_exceptions.md R185 (b): after a fault, in the middle of a batch too, the snapshot shows the record and the flags. -/
theorem test_snapshot_after_fault : (after 0x00EE { live with bc := 3 }).map
    (fun t => t.snapshot.map (fun p => (p.fault.map (·.info), p.runCpu, p.runTmr))) =
    some (some (some (some (.stack, 0)), false, true)) := by decide

/-- 10_state.md R41: the snapshot is there at yield points only; the first cycle of a batch leaves one, the tenth reaches one. -/
theorem test_snapshot_at_yield_points : (after 0x6A7F live).map (·.snapshot.isSome) = some false ∧
    (after 0x6A7F { live with bc := 9 }).map (·.snapshot.isSome) = some true := by decide

/-! ### Fetch and decode in a cycle (95_test_vectors.md 2.7) -/

theorem test_zero_memory : (after 0x0000 live).map (fun t => (t.fault, t.pc, t.runCpu)) =
    some (some ⟨.unknownOpcode, 1, some 0x0000#16, 0x200#16, none⟩, 0x202#16, false) := by decide
theorem test_fetch_beyond : (afterEvent .cycle { live with pc := 0xFFF }).map (fun t => (t.fault, t.pc)) =
    some (some ⟨.outOfBoundsAccess, 2, none, 0xFFF#16, some (.fetch, 0xFFF)⟩, 0xFFF#16) := by decide
theorem test_last_legal_fetch : (after 0x1234 { live with pc := 0xFFE }).map (·.pc) = some 0x234#16 := by decide

/-! ### Witnesses: states and operands that meet the hypotheses of the statements, at the ends of their ranges -/

/-- A state with a word placed and a CPU cycle next. -/
def holding (w : Nat) (s : State) : State := s.withFetchWord 16 w

/-- The same inside a batch. -/
def busy : State := { live with bc := 9 }

/-- The state waiting for a key into V[3]. -/
def waiting : State := { live with gate := .awaitingKey, waitx := 3, bc := 4 }

/-- The state after a fault. -/
def halted : State := { live with runCpu := false, fault := some ⟨.outOfBoundsAccess, 2, some 0x00EE, 0x200, some (.stack, 0)⟩ }

/-- The state after `stop`. -/
def stopped : State := { live with life := .stopped, runCpu := false, runTmr := false }

/-- The states the rest of the sections use meet the invariants, so they are no states of nowhere. -/
theorem witness_states_meet_invariants :
    (busy.ControlConsistent ∧ waiting.ControlConsistent ∧ halted.ControlConsistent ∧ stopped.ControlConsistent) ∧
    (busy.PcBounded ∧ waiting.PcBounded ∧ halted.PcBounded ∧ stopped.PcBounded) :=
  ⟨⟨by decide, by decide, by decide, by decide⟩, by decide, by decide, by decide, by decide⟩

theorem witness_EncodeOfDecodedIsTheWord : decode 0x81F6 = .ok (.shr 1 0xF) := by decide

theorem witness_DecodesExactlyTheWordsOfTheOpcodeMap :
    (∀ r ∈ opcodeRows, (0x0000 : Word) &&& r.mask ≠ r.pattern) ∧ (∀ r ∈ opcodeRows, (0xFFFF : Word) &&& r.mask ≠ r.pattern) ∧
    ∃ r₁ ∈ opcodeRows, ∃ r₂ ∈ opcodeRows, (0x00E0 : Word) &&& r₁.mask = r₁.pattern ∧ (0x00E0 : Word) &&& r₂.mask = r₂.pattern := by
  decide

/-- PC at the last address a fetch can start from. -/
def lastFetch : State := holding 0x1234 { live with pc := 0xFFE }

theorem witness_StepRunsTheDecodedInstruction :
    lastFetch.nextEvent = .cycle ∧ lastFetch.runCpu = true ∧ lastFetch.gate = .running ∧ lastFetch.pc.toNat = 0xFFE ∧
    decode (lastFetch.memRead lastFetch.pc.toNat ++ lastFetch.memRead (lastFetch.pc.toNat + 1)) = .ok (.jp 0x234) ∧
    ∃ t, exec (.jp 0x234) { lastFetch.takeEvent with pc := lastFetch.pc + 2, dirty := false } = .next t ∧ t.runCpu = true :=
  ⟨by decide, by decide, by decide, by decide, by decide, exists_next (·.runCpu = true) (by decide)⟩

/-- PC one past it. -/
def pastFetch : State := { live with pc := 0xFFF }

theorem witness_FetchReadsTwoBytesOrFaults : pastFetch.nextEvent = .cycle ∧ pastFetch.runCpu = true ∧ pastFetch.gate = .running ∧
    0xFFE < pastFetch.pc.toNat ∧ pastFetch.fault = none := by decide

theorem witness_UnknownOpcodeHalts : live.nextEvent = .cycle ∧ live.runCpu = true ∧
    live.gate = .running ∧ live.pc.toNat ≤ 0xFFE ∧ live.fault = none ∧
    (0x0000 : Word) = live.memRead live.pc.toNat ++ live.memRead (live.pc.toNat + 1) ∧
    (∀ r ∈ opcodeRows, (0x0000 : Word) &&& r.mask ≠ r.pattern) := by decide

theorem witness_FaultingCyclesArePrecise :
    (live.runCpu = true ∧ ∃ t, cpuCycle live = .next t ∧ t.runCpu = false) ∧
    (pastFetch.runCpu = true ∧ ∃ t, cpuCycle pastFetch = .next t ∧ t.runCpu = false) ∧
    ∃ t, cpuCycle (holding 0x00EE live) = .next t ∧ t.runCpu = false :=
  ⟨⟨rfl, exists_next (·.runCpu = false) (by decide)⟩, ⟨rfl, exists_next (·.runCpu = false) (by decide)⟩,
    exists_next (·.runCpu = false) (by decide)⟩

/-- One cycle for each cause a record can name. -/
theorem witness_FaultRecordsNameTheirCause :
    (∃ t, cpuCycle live = .next t ∧ t.runCpu = false ∧ t.fault.map (·.kind) = some .unknownOpcode) ∧
    (∃ t, cpuCycle pastFetch = .next t ∧ t.runCpu = false ∧ where_ t = some (some (.fetch, 0xFFF))) ∧
    (∃ t, cpuCycle (holding 0xF033 { live with i := 0xFFE }) = .next t ∧ t.runCpu = false ∧ where_ t = some (some (.mem, 0x1000))) ∧
    (∃ t, cpuCycle (holding 0x00EE live) = .next t ∧ t.runCpu = false ∧ where_ t = some (some (.stack, 0))) ∧
    (∃ t, cpuCycle (holding 0x2ABC { live with sp := 16 }) = .next t ∧ t.runCpu = false ∧ where_ t = some (some (.stack, 16))) ∧
    (∃ t, cpuCycle (holding 0xD121 (atI 0x300 [0xC0] (regs [(1, 63), (2, 31)] live))) = .next t ∧ t.runCpu = false ∧
      where_ t = some (some (.fb, 2048))) ∧
    ∃ t, cpuCycle (holding 0xE19E (regs [(1, 16)] live)) = .next t ∧ t.runCpu = false ∧ where_ t = some (some (.key, 16)) :=
  ⟨exists_next (fun t => t.runCpu = false ∧ t.fault.map (·.kind) = some .unknownOpcode) (by decide),
    exists_next (fun t => t.runCpu = false ∧ where_ t = some (some (.fetch, 0xFFF))) (by decide),
    exists_next (fun t => t.runCpu = false ∧ where_ t = some (some (.mem, 0x1000))) (by decide),
    exists_next (fun t => t.runCpu = false ∧ where_ t = some (some (.stack, 0))) (by decide),
    exists_next (fun t => t.runCpu = false ∧ where_ t = some (some (.stack, 16))) (by decide),
    exists_next (fun t => t.runCpu = false ∧ where_ t = some (some (.fb, 2048))) (by decide),
    exists_next (fun t => t.runCpu = false ∧ where_ t = some (some (.key, 16))) (by decide)⟩

theorem witness_DirtyExactlyAfterClsAndDrw :
    (∃ t, cpuCycle (holding 0x00E0 live) = .next t ∧ t.dirty = true) ∧ (∃ t, cpuCycle (holding 0x6A7F live) = .next t ∧ t.dirty = false) ∧
    (holding 0x00E0 live).runCpu = true ∧ (holding 0x00E0 live).canFetch = true ∧ decode (holding 0x00E0 live).fetchWord = .ok .cls :=
  ⟨exists_next (·.dirty = true) (by decide), exists_next (·.dirty = false) (by decide), by decide, by decide, by decide⟩

theorem witness_DirtyCyclesFlushTheFramebuffer : (holding 0x00E0 live).runCpu = true ∧
    (∃ t, cpuCycle (holding 0x00E0 live) = .next t ∧ t.dirty = true) ∧ (∃ t, cpuCycle (holding 0x6A7F live) = .next t ∧ t.dirty = false) ∧
    ∃ t, cpuCycle (holding 0xD122 { live with i := 0xFFF }) = .next t ∧ t.runCpu = false :=
  ⟨by decide, exists_next (·.dirty = true) (by decide), exists_next (·.dirty = false) (by decide),
    exists_next (·.runCpu = false) (by decide)⟩

/-- The last cycle of a batch, and a faulting one. -/
theorem witness_CyclesCountInTheBatch : busy.runCpu = true ∧ (∃ t, cpuCycle (holding 0x6A7F busy) = .next t ∧ t.bc = 0) ∧
    ∃ t, cpuCycle busy = .next t ∧ t.runCpu = false :=
  ⟨rfl, exists_next (·.bc = 0) (by decide), exists_next (·.runCpu = false) (by decide)⟩

/-- A sprite of one row with its leftmost bit set, at the last pixel of the screen. -/
def lastPixel : State := atI 0x300 [0x80] (regs [(1, 63), (2, 31)] live)

theorem witness_DrawTogglesThePixelsUnderTheSprite : SpriteInMemory lastPixel 1 ∧ UnderSprite lastPixel 1 2 1 2047 ∧
    ∀ p, UnderSprite lastPixel 1 2 1 p → p ≤ 2047 := by
  refine ⟨by unfold SpriteInMemory; decide, ⟨0, 0, by unfold SpriteOn; decide, by decide⟩, ?_⟩
  rintro p ⟨r, c, ⟨hr, hc, hb⟩, rfl⟩
  obtain rfl : r = 0 := Nat.lt_one_iff.mp hr
  interval_cases c
  · decide
  all_goals exact absurd hb (by decide)

/-- The clause of a pixel that was on, and a sprite whose last row is the last byte of memory. -/
theorem witness_DrawTogglesThePixelsUnderTheSprite_hit :
    (∃ p, UnderSprite { lastPixel with fb := 1#2048 <<< 2047 } 1 2 1 p ∧
      ({ lastPixel with fb := 1#2048 <<< 2047 } : State).fb.getLsbD p = true) ∧ SpriteInMemory { live with i := 0xFFE } 2 := by
  refine ⟨⟨2047, ⟨0, 0, by unfold SpriteOn; decide, by decide⟩, by decide⟩, by unfold SpriteInMemory; decide⟩

theorem witness_DrawFromBeyondMemoryFaults : ¬ SpriteInMemory { live with i := 0xFFF } 2 ∧ ¬ SpriteInMemory { live with i := 0xFFFF } 15 := by
  unfold SpriteInMemory; decide

/-- Two set bits, the first on the last pixel, the second past it. -/
def pastPixel : State := atI 0x300 [0xC0] (regs [(1, 63), (2, 31)] live)

theorem witness_DrawBeyondTheFramebufferFaults : SpriteInMemory pastPixel 1 ∧ SpriteOn pastPixel 1 0 1 ∧
    spritePixel pastPixel 1 2 0 1 = 2048 ∧
    ∀ r' c', SpriteOn pastPixel 1 r' c' → (r' < 0 ∨ (r' = 0 ∧ c' < 1)) → spritePixel pastPixel 1 2 r' c' ≤ 2047 := by
  refine ⟨by unfold SpriteInMemory; decide, by unfold SpriteOn; decide, by decide, ?_⟩
  rintro r c - (h | ⟨rfl, h⟩)
  · omega
  · obtain rfl : c = 0 := by omega
    decide

theorem witness_DrawingTwiceRestoresTheFramebuffer : (1 : Nibble) ≠ vf ∧ (2 : Nibble) ≠ vf ∧ SpriteInMemory lastPixel 1 ∧
    ∃ t, exec (.drw 1 2 1) lastPixel = .next t ∧ ∃ u, exec (.drw 1 2 1) t = .next u ∧ u.reg vf = 1 := by
  refine ⟨by decide, by decide, by unfold SpriteInMemory; decide, _, rfl, exists_next (fun u => u.reg vf = 1) (by decide)⟩

theorem witness_RetPopsTheCallStack : (live.sp.val = 0) ∧ 0 < ({ live with sp := 1 } : State).sp.val ∧
    0 < ({ live with sp := 16 } : State).sp.val := by decide

theorem witness_CallPushesPcAndJumps : live.sp.val < 16 ∧ ({ live with sp := 15 } : State).sp.val < 16 ∧
    ({ live with sp := 16 } : State).sp.val = 16 := by decide

theorem witness_CallThenRetReturns : ({ live with sp := 15 } : State).sp.val < 16 := by decide

theorem witness_KeySkipsReadTheKeypad : ((regs [(1, 15)] live).reg 1).toNat < 16 ∧ 0xF < ((regs [(1, 16)] live).reg 1).toNat := by decide

/-- The clauses of the flag writers: another destination than VF. -/
theorem witness_FlagWriters : (0xE : Nibble) ≠ vf ∧ (0 : Nibble) ≠ vf := by decide

theorem witness_DecimalDigitsAreStored : ({ live with i := 0xFFD } : State).i.toNat + 2 ≤ 0xFFF ∧
    0xFFF < ({ live with i := 0xFFE } : State).i.toNat + 2 := by decide

theorem witness_RegistersAreStoredFromI : ({ live with i := 0xFF0 } : State).i.toNat + (0xF : Nibble).toNat ≤ 0xFFF ∧
    0xFFF < ({ live with i := 0xFF1 } : State).i.toNat + (0xF : Nibble).toNat := by decide

theorem witness_RegistersAreLoadedFromI : ({ live with i := 0xFFF } : State).i.toNat + (0 : Nibble).toNat ≤ 0xFFF ∧
    0xFFF < ({ live with i := 0x1000 } : State).i.toNat + (0 : Nibble).toNat := by decide

theorem witness_LoadRestoresTheStoredRegisters : live.i.toNat + (1 : Nibble).toNat ≤ 0xFFF ∧
    ∃ t, exec (.storeRegs 1) live = .next t ∧ ∃ u : State, u.mem = t.mem ∧ u.i = t.i ∧ u.reg 0 ≠ t.reg 0 ∧
      ∃ w, exec (.loadRegs 1) u = .next w := by
  refine ⟨by decide, _, rfl, regs [(0, 7)] live, by decide, by decide, by decide, _, rfl⟩

/-- The bound of each store met, with both fetched bytes stored, one of them, and none. -/
theorem witness_StoredBytesAreFetchedNext :
    (({ live with i := 0xFF0, pc := 0xFFE } : State).i.toNat + (0xF : Nibble).toNat = 0xFFF ∧
      ({ live with i := 0xFF0, pc := 0xFFE } : State).pc.toNat + 1 = 0xFF0 + (0xF : Nibble).toNat) ∧
    (({ live with i := 0xFFD, pc := 0xFFE } : State).i.toNat + 2 = 0xFFF ∧
      ({ live with i := 0xFFD, pc := 0xFFE } : State).pc.toNat = 0xFFD + 1) ∧
    (({ live with i := 0x201 } : State).pc.toNat + 1 = 0x201 + 0 ∧ ∀ k < 3, ({ live with i := 0x201 } : State).pc.toNat ≠ 0x201 + k) ∧
    ∀ k < 3, live.pc.toNat + 1 ≠ live.i.toNat + k := by decide

/-- 20_memory.md R62's store and fetch in numbers: FX33 of 156 (95_test_vectors.md S8) at PC - 1 leaves 05 06 at PC. -/
theorem test_store_then_fetch : (nextOf (exec (.ldB 3) { (regs [(3, 0x9C)] live) with i := 0x1FF })).map (·.fetchWord) =
    some 0x0506#16 := by decide

theorem witness_KeyWaitOpensTheGate : (soon .cycle waiting).gate = .awaitingKey ∧ (soon .cycle waiting).nextEvent = .cycle ∧
    (soon .cycle waiting).runCpu = true := by decide

theorem witness_TickRunsTheTimersDown : (soon .tick live).nextEvent = .tick ∧ (soon .tick live).runTmr = true ∧
    (soon .tick live).atYield = true ∧ (soon .tick waiting).atYield = true ∧ (soon .tick halted).atYield = true := by decide

theorem witness_KeyDownSetsTheKeyAndEndsAWait :
    ((soon (.keyDown 15) live).nextEvent = .keyDown 15 ∧ live.life ≠ .stopped ∧ (soon (.keyDown 15) live).atYield = true ∧
      live.gate = .running) ∧
    ((soon (.keyDown 0) waiting).nextEvent = .keyDown 0 ∧ waiting.life ≠ .stopped ∧ (soon (.keyDown 0) waiting).atYield = true ∧
      waiting.gate = .awaitingKey) := by decide

theorem witness_KeyUpClearsTheKeyOnly :
    (soon (.keyUp 15) waiting).nextEvent = .keyUp 15 ∧ (soon (.keyUp 16) waiting).nextEvent = .keyUp 16 ∧ waiting.life ≠ .stopped ∧
    (soon (.keyUp 15) waiting).atYield = true ∧ (soon (.keyUp 16) waiting).atYield = true := by decide

theorem witness_InvalidKeyIndexIsRejected : (soon (.keyDown 16) waiting).nextEvent = .keyDown 16 ∧
    (soon (.keyUp 16) waiting).nextEvent = .keyUp 16 ∧ (soon (.keyDown 16) waiting).atYield = true ∧
    (soon (.keyUp 16) waiting).atYield = true := by decide

theorem witness_InsideABatchOnlyCyclesRun : busy.bc ≠ 0 ∧ busy.gate = .running ∧ busy.runCpu = true ∧ busy.life = .active ∧
    busy.runTmr = true ∧ (soon .tick busy).nextEvent = .tick ∧ (soon .stop busy).nextEvent = .stop ∧
    (soon (.keyDown 7) busy).nextEvent = .keyDown 7 ∧ (soon (.keyUp 7) busy).nextEvent = .keyUp 7 := by decide

/-- The longest program, one byte more, and none. -/
theorem witness_LoadWritesFontAndProgram : State.reset.life = .idle ∧
    (soon (.load (List.replicate 3584 1)) State.reset).nextEvent = .load (List.replicate 3584 1) ∧
    (List.replicate 3584 (1 : Byte)).length ≤ 3584 ∧ 3584 < (List.replicate 3585 (1 : Byte)).length ∧
    (soon (.load []) State.reset).nextEvent = .load [] := by
  refine ⟨rfl, rfl, ?_, ?_, rfl⟩ <;> rw [List.length_replicate]
  decide

theorem witness_StartAndStopSetTheRunningFlags :
    ((soon .start State.reset).nextEvent = .start ∧ State.reset.life = .idle) ∧ ((soon .start live).nextEvent = .start ∧ live.life ≠ .idle) ∧
    ((soon (.load []) stopped).nextEvent = .load [] ∧ stopped.life ≠ .idle) ∧
    ((soon .stop waiting).nextEvent = .stop ∧ waiting.life ≠ .stopped ∧ (soon .stop waiting).atYield = true) ∧
    ((soon .stop stopped).nextEvent = .stop ∧ stopped.life = .stopped) := by decide

theorem witness_StoppedMachineIsFrozen : stopped.life = .stopped ∧ stopped.runCpu = false ∧ stopped.runTmr = false ∧
    (soon (.keyDown 3) stopped).nextEvent ≠ .reset ∧ ∃ t, step (soon (.keyDown 3) stopped) = .next t ∧ t.keys = stopped.keys :=
  ⟨rfl, rfl, rfl, by decide, exists_next (·.keys = stopped.keys) (by decide)⟩

/-- A tick and a key event after a fault. -/
theorem witness_HaltedCoreExecutesNothing : halted.ControlConsistent ∧ (∃ r, halted.fault = some r) ∧
    (soon .tick halted).nextEvent ≠ .reset ∧ (∃ t, step (soon .tick halted) = .next t) ∧
    ∃ t, step (soon (.keyDown 3) halted) = .next t ∧ t.keys[3] = true :=
  ⟨by decide, ⟨_, rfl⟩, by decide, ⟨_, rfl⟩, exists_next (·.keys[3] = true) (by decide)⟩

theorem witness_ResetReconstructsTheMachine : (soon .reset halted).nextEvent = .reset ∧ (soon .reset busy).nextEvent = .reset := by decide

theorem witness_SelfJumpChangesOnlyTheBatchCount : (holding 0x1200 live).AtEnd ∧ (holding 0x1200 live).runCpu = true := by decide

/-- For each piece of state an instruction that changes it. -/
theorem witness_WritersOfTheSpecialRegistersAndMemories :
    (∃ t, exec (.ldI 0xFFF) live = .next t ∧ t.i ≠ live.i) ∧ (∃ t, exec (.call 0x200) live = .next t ∧ t.sp ≠ live.sp) ∧
    (∃ t, exec (.call 0x200) live = .next t ∧ t.stack ≠ live.stack) ∧
    (∃ t, exec (.ldDtVx 1) (regs [(1, 9)] live) = .next t ∧ t.dt ≠ live.dt) ∧
    (∃ t, exec (.ldStVx 1) (regs [(1, 9)] live) = .next t ∧ t.st ≠ live.st) ∧
    (∃ t, exec (.rnd 1 0xFF) live = .next t ∧ t.draws ≠ live.draws) ∧
    (∃ t, exec (.storeRegs 1) (regs [(1, 9)] live) = .next t ∧ t.mem ≠ live.mem) ∧
    (∃ t, exec (.drw 1 2 1) lastPixel = .next t ∧ t.fb ≠ lastPixel.fb) :=
  ⟨exists_next (·.i ≠ live.i) (by decide), exists_next (·.sp ≠ live.sp) (by decide), exists_next (·.stack ≠ live.stack) (by decide),
    exists_next (·.dt ≠ live.dt) (by decide), exists_next (·.st ≠ live.st) (by decide), exists_next (·.draws ≠ live.draws) (by decide),
    exists_next (·.mem ≠ live.mem) (by decide), exists_next (·.fb ≠ lastPixel.fb) (by decide)⟩

theorem witness_WritersOfTheFlagRegister :
    (∃ t, exec (.addReg 1 2) (regs [(1, 0xFF), (2, 1)] live) = .next t ∧ t.reg vf ≠ live.reg vf) ∧
    ∃ t, exec (.ldImm vf 7) live = .next t ∧ t.reg vf ≠ live.reg vf :=
  ⟨exists_next (fun t => t.reg vf ≠ live.reg vf) (by decide), exists_next (fun t => t.reg vf ≠ live.reg vf) (by decide)⟩

theorem witness_NoInstructionReachesTheOutside :
    (∃ t, exec (.ldVxK 3) live = .next t ∧ (t.gate ≠ live.gate ∨ t.waitx ≠ live.waitx)) ∧
    ∃ t, exec .ret live = .next t ∧ t.runCpu ≠ live.runCpu ∧ t.fault ≠ live.fault :=
  ⟨exists_next (fun t => t.gate ≠ live.gate ∨ t.waitx ≠ live.waitx) (by decide),
    exists_next (fun t => t.runCpu ≠ live.runCpu ∧ t.fault ≠ live.fault) (by decide)⟩

/-- A store at the top of memory keeps the premise of each invariant within reach of a step. -/
theorem witness_Invariants : Memory.wf (holding 0xF055 { live with i := 0xFFF }).mem ∧ (holding 0xF055 live).PcBounded ∧
    (holding 0xF055 live).ControlConsistent ∧ (∃ t, step (holding 0xF055 { live with i := 0xFFF }) = .next t) ∧
    ∃ t, step (holding 0xF055 live) = .next t :=
  ⟨by decide, by decide, by decide, ⟨_, rfl⟩, ⟨_, rfl⟩⟩

/-- The bound of PC is met with equality, and so is the bound of a return address. -/
theorem witness_PcBounded : ({ live with pc := 0x10FE, sp := 1, stack := live.stack.set 0 0x1000 } : State).PcBounded := by decide

end Sys2Proof.Tests
end

section
/-! PROOFS. The statements of the family 10_state.md. Three layers: what an instruction writes (table R43), what a CPU cycle does while
the CPU loop runs, and what makes a predicate an invariant of every step. Each statement is then a case split on one of them. -/

namespace Sys2Proof.Machine

/-! ### What an instruction writes (10_state.md R43) -/

/-- Table R43 for the pieces of state that only some instructions write: each that changed from `s` to `t` names `i` a writer. -/
structure Writers (i : Instr) (s t : State) : Prop where
  index : t.i ≠ s.i → (∃ nnn, i = .ldI nnn) ∨ (∃ x, i = .addI x) ∨ ∃ x, i = .ldF x
  sp : t.sp ≠ s.sp → i = .ret ∨ ∃ nnn, i = .call nnn
  stack : t.stack ≠ s.stack → ∃ nnn, i = .call nnn
  dt : t.dt ≠ s.dt → ∃ x, i = .ldDtVx x
  st : t.st ≠ s.st → ∃ x, i = .ldStVx x
  draws : t.draws ≠ s.draws → ∃ x nn, i = .rnd x nn
  mem : t.mem ≠ s.mem → (∃ x, i = .ldB x) ∨ ∃ x, i = .storeRegs x
  fb : t.fb ≠ s.fb → i = .cls ∨ ∃ x y n, i = .drw x y n
  wait : t.gate ≠ s.gate ∨ t.waitx ≠ s.waitx → ∃ x, i = .ldVxK x
  dirty : t.dirty ≠ s.dirty → i = .cls ∨ ∃ x y n, i = .drw x y n

theorem OwnEffect.writers {i : Instr} {s t : State} (h : OwnEffect s t i) : Writers i s t := by
  cases i with
  | ret | call | drw | ldB | storeRegs => obtain ⟨-, rfl⟩ := h; constructor <;> simp
  | seImm | sneImm | seReg | sneReg | skp | sknp => obtain ⟨c, rfl⟩ := h; constructor <;> simp
  | loadRegs => obtain ⟨-, rfl⟩ := h; rw [State.setRegsFrom_eq]; constructor <;> simp
  | _ => subst h; constructor <;> simp

theorem exec_writers {i : Instr} {s t : State} (h : exec i s = .next t) : Writers i s t := by
  rcases exec_next_cases h with ⟨space, k, -, rfl⟩ | ho
  · constructor <;> simp
  · exact ho.writers

/-- The pieces of state that belong to the outside world, the cycle and the fault entry (table R43) are the same in `s` and `t`. -/
structure OutsideKept (s t : State) : Prop where
  keys : t.keys = s.keys
  life : t.life = s.life
  runCpu : t.runCpu = s.runCpu
  runTmr : t.runTmr = s.runTmr
  bc : t.bc = s.bc
  tone : t.tone = s.tone
  fault : t.fault = s.fault
  shown : t.shown = s.shown
  rejected : t.rejected = s.rejected
  agenda : t.agenda = s.agenda
  eventCount : t.eventCount = s.eventCount

theorem OwnEffect.outsideKept {i : Instr} {s t : State} (h : OwnEffect s t i) : OutsideKept s t := by
  cases i with
  | ret | call | drw | ldB | storeRegs => obtain ⟨-, rfl⟩ := h; constructor <;> rfl
  | seImm | sneImm | seReg | sneReg | skp | sknp => obtain ⟨c, rfl⟩ := h; constructor <;> simp
  | loadRegs => obtain ⟨-, rfl⟩ := h; rw [State.setRegsFrom_eq]; constructor <;> rfl
  | _ => subst h; constructor <;> rfl

/-- From `dirty` 0 an own effect sets it exactly if the instruction draws or clears the screen. -/
theorem OwnEffect.dirty_iff {i : Instr} {s t : State} (h : OwnEffect s t i) (hs : s.dirty = false) :
    t.dirty = true ↔ i = .cls ∨ ∃ x y n, i = .drw x y n := by
  constructor
  · exact fun ht => h.writers.dirty (by simp [ht, hs])
  · rintro (rfl | ⟨x, y, n, rfl⟩)
    · obtain rfl := h; rfl
    · obtain ⟨-, rfl⟩ := h; rfl

/-! ### What an own effect keeps within bounds -/

/-- A store at I has room below 4096 (44_index_memory.md R143, R144), so memory stays canonical. -/
theorem OwnEffect.mem_wf {i : Instr} {s t : State} (h : OwnEffect s t i) (hs : Memory.wf s.mem) : Memory.wf t.mem := by
  by_cases hm : t.mem = s.mem
  · rwa [hm]
  · obtain ⟨x, rfl⟩ | ⟨x, rfl⟩ := h.writers.mem hm
    · obtain ⟨hroom, rfl⟩ := h
      exact Memory.wf_writeList _ hs (by simpa [decimalDigits] using hroom)
    · obtain ⟨hroom, rfl⟩ := h
      exact Memory.wf_writeList _ hs (by simpa using hroom)

theorem addrOperand_toNat_le (nnn : Addr12) : (addrOperand nnn).toNat ≤ 0xFFF := by
  have := nnn.isLt
  simp [addrOperand]; omega

/-- The highest target of BNNN, 0xFFF + 0xFF (41_flow.md R103; 10_state.md R44). -/
theorem jpV0_target_toNat_le (nnn : Addr12) (b : Byte) : (addrOperand nnn + regOperand b).toNat ≤ 0x10FE := by
  have := nnn.isLt
  have := b.isLt
  simp [addrOperand, regOperand, BitVec.toNat_add]; omega

/-- CALL pushes the advanced PC, and RET brings no entry back into use. -/
theorem OwnEffect.stackBounded {i : Instr} {s t : State} (h : OwnEffect s t i) (hpc : s.pc.toNat ≤ 0x1000) (hs : s.StackBounded) :
    t.StackBounded := by
  by_cases hsp : t.sp = s.sp
  · by_cases hst : t.stack = s.stack
    · unfold State.StackBounded; rwa [hsp, hst]
    · obtain ⟨nnn, rfl⟩ := h.writers.stack hst
      obtain ⟨_, rfl⟩ := h
      simp [Fin.ext_iff] at hsp
  · obtain rfl | ⟨nnn, rfl⟩ := h.writers.sp hsp
    · obtain ⟨_, rfl⟩ := h
      exact fun k hk => hs k (Nat.lt_of_lt_pred hk)
    · obtain ⟨hroom, rfl⟩ := h
      intro k hk
      by_cases hks : s.sp.val = k.val
      · simpa [hks] using hpc
      · have hlt : k.val < s.sp.val := by simp only at hk; omega
        simpa [Vector.getElem_set_ne, hks] using hs k hlt

/-- From an advanced PC of at most 0x1000 a skip reaches 0x1002 and the jumps at most 0x10FE. -/
theorem OwnEffect.pc_le {i : Instr} {s t : State} (h : OwnEffect s t i) (hpc : s.pc.toNat ≤ 0x1000) (hs : s.StackBounded) :
    t.pc.toNat ≤ 0x10FE := by
  have kept : s.pc.toNat ≤ 0x10FE := by omega
  have skip (c : Bool) : (s.skipIf c).pc.toNat ≤ 0x10FE := by
    cases c
    · simpa using kept
    · simp [BitVec.toNat_add]; omega
  cases i with
  | ret =>
    obtain ⟨hused, rfl⟩ := h
    have := hs ⟨s.sp.val - 1, by omega⟩ (Nat.sub_lt hused Nat.one_pos)
    exact Nat.le_trans this (by decide)
  | jp nnn => subst h; exact Nat.le_trans (addrOperand_toNat_le nnn) (by decide)
  | call nnn => obtain ⟨-, rfl⟩ := h; exact Nat.le_trans (addrOperand_toNat_le nnn) (by decide)
  | jpV0 nnn => subst h; exact jpV0_target_toNat_le nnn _
  | seImm | sneImm | seReg | sneReg | skp | sknp => obtain ⟨c, rfl⟩ := h; exact skip c
  | drw | ldB | storeRegs => obtain ⟨-, rfl⟩ := h; exact kept
  | loadRegs => obtain ⟨-, rfl⟩ := h; rw [State.setRegsFrom_eq]; exact kept
  | _ => subst h; exact kept

/-! ### The CPU cycle while the CPU loop runs -/

/-- A cycle from RUN_CPU 1 takes a fault, before or after PC was advanced, or completes an instruction's own effect. -/
theorem cpuCycle_running_cases {s t : State} (hr : s.runCpu = true) (h : cpuCycle s = .next t) :
    (s.canFetch = false ∧ ∃ r, t = s.clearDirty.takeFault r) ∨
    (s.canFetch = true ∧ ∃ r, t = s.fetched.takeFault r) ∨
    (s.canFetch = true ∧ ∃ i u, decode s.fetchWord = .ok i ∧ OwnEffect s.fetched u i ∧ u.runCpu = true ∧ t = u.completeCycle) := by
  rcases cpuCycle_cases h with ⟨hf, rfl⟩ | ⟨hf, -, rfl⟩ | ⟨hf, i, u, hd, he, rfl⟩
  · exact .inl ⟨hf, _, rfl⟩
  · exact .inr (.inl ⟨hf, _, rfl⟩)
  · rcases exec_next_cases he with ⟨space, k, -, rfl⟩ | ho
    · exact .inr (.inl ⟨hf, _, rfl⟩)
    · have hu : u.runCpu = true := ho.outsideKept.runCpu.trans hr
      exact .inr (.inr ⟨hf, i, u, hd, ho, hu, by simp [hu]⟩)

/-- After a fetch inside MEM the advanced PC is at most 0x1000 (20_memory.md R54). -/
theorem State.fetched_pc_toNat_le {s : State} (hf : s.canFetch = true) : s.fetched.pc.toNat ≤ 0x1000 := by
  have := s.canFetch_iff.mp hf
  simp [BitVec.toNat_add]; omega

theorem cpuCycle_keeps_memory_canonical {s t : State} (hs : Memory.wf s.mem) (hr : s.runCpu = true) (h : cpuCycle s = .next t) :
    Memory.wf t.mem := by
  rcases cpuCycle_running_cases hr h with ⟨-, r, rfl⟩ | ⟨-, r, rfl⟩ | ⟨-, i, u, -, ho, -, rfl⟩
  · exact hs
  · exact hs
  · exact ho.mem_wf hs

theorem cpuCycle_keeps_pcBounded {s t : State} (hs : s.PcBounded) (hr : s.runCpu = true) (h : cpuCycle s = .next t) :
    t.PcBounded := by
  have hstack : s.StackBounded := hs.2
  rcases cpuCycle_running_cases hr h with ⟨-, r, rfl⟩ | ⟨hf, r, rfl⟩ | ⟨hf, i, u, -, ho, -, rfl⟩
  · exact hs
  · exact ⟨Nat.le_trans (State.fetched_pc_toNat_le hf) (by decide), hstack⟩
  · have hpc := State.fetched_pc_toNat_le hf
    exact ⟨ho.pc_le hpc hstack, ho.stackBounded hpc hstack⟩

/-- The cycle leaves LIFE and RUN_TMR alone; it halts with the gate as it was, or runs on with no new fault. -/
theorem cpuCycle_control {s t : State} (hr : s.runCpu = true) (h : cpuCycle s = .next t) :
    t.life = s.life ∧ t.runTmr = s.runTmr ∧ (t.runCpu = false ∧ t.gate = s.gate ∨ t.runCpu = true ∧ t.fault = s.fault) := by
  rcases cpuCycle_running_cases hr h with ⟨-, r, rfl⟩ | ⟨-, r, rfl⟩ | ⟨-, i, u, -, ho, hu, rfl⟩
  · exact ⟨rfl, rfl, .inl ⟨rfl, rfl⟩⟩
  · exact ⟨rfl, rfl, .inl ⟨rfl, rfl⟩⟩
  · exact ⟨ho.outsideKept.life, ho.outsideKept.runTmr, .inr ⟨hu, ho.outsideKept.fault⟩⟩

theorem cpuCycle_keeps_controlConsistent {s t : State} (hs : s.ControlConsistent) (hr : s.runCpu = true) (hg : s.gate = .running)
    (h : cpuCycle s = .next t) : t.ControlConsistent := by
  obtain ⟨htmr, hcpu, hfault, -, -⟩ := hs
  have hl : s.life = .active := hcpu hr
  have hn : s.fault = none := by by_contra hne; simp [hfault hne] at hr
  obtain ⟨hlife, ht, hend⟩ := cpuCycle_control hr h
  have hact : t.life = .active := hlife.trans hl
  have hidle : t.life ≠ .idle := by simp [hact]
  have htmr' : t.runTmr = true ↔ t.life = .active := by rwa [ht, hlife]
  rcases hend with ⟨hr', hg'⟩ | ⟨hr', hf'⟩
  · exact ⟨htmr', fun _ => hact, fun _ => hr', fun hi => absurd hi hidle, fun hw => by simp [hg', hg] at hw⟩
  · exact ⟨htmr', fun _ => hact, fun hne => absurd (hf'.trans hn) hne, fun hi => absurd hi hidle, fun _ => .inl hr'⟩

/-! ### The other events -/

theorem State.load_cases (s : State) (bytes : List Byte) :
    (bytes.length ≤ 3584 ∧
      s.load bytes = { (s.memWriteList 0 fontTable).memWriteList 0x200 bytes with rejected := none }) ∨
    s.load bytes = { s with rejected := some (.load, bytes.length) } := by
  unfold State.load
  split
  · rename_i hl; exact .inl ⟨of_decide_eq_true hl, rfl⟩
  · exact .inr rfl

theorem State.keyDown_cases (s : State) (k : Nat) :
    s.keyDown k = s ∨ s.keyDown k = s.setKey k true ∨ s.keyDown k = (s.setKey k true).endWait k := by
  unfold State.keyDown
  split
  · split
    · exact .inr (.inr rfl)
    · exact .inr (.inl rfl)
  · exact .inl rfl

theorem State.keyUp_cases (s : State) (k : Nat) : s.keyUp k = s ∨ s.keyUp k = s.setKey k false := by
  unfold State.keyUp
  split
  · exact .inr rfl
  · exact .inl rfl

/-- The font and the longest program end at 4096 (70_reset_and_hazards.md R191). -/
theorem State.load_mem_wf {s : State} (hs : Memory.wf s.mem) (bytes : List Byte) : Memory.wf (s.load bytes).mem := by
  obtain ⟨hlen, he⟩ | he := s.load_cases bytes
  · rw [he]
    have hfont : Memory.wf (Memory.writeList s.mem 0 fontTable) :=
      Memory.wf_writeList _ hs (by simp [fontTable, Config.fontBytes])
    exact Memory.wf_writeList _ hfont (by omega)
  · rw [he]; exact hs

/-! ### Invariants of every step -/

/-- What makes `P` an invariant: every event keeps it, taking the event from the schedule among them (60_exceptions.md R170). -/
structure StepInvariant (P : State → Prop) : Prop where
  takeEvent : ∀ s, P s → P s.takeEvent
  cycle : ∀ s t, P s → s.runCpu = true → s.gate = .running → cpuCycle s = .next t → P t
  reconstruct : ∀ s, P s → P s.reconstruct
  load : ∀ s bytes, P s → P (s.load bytes)
  start : ∀ s, P s → s.life = .idle → P s.start
  stop : ∀ s, P s → P s.stop
  tick : ∀ s, P s → P s.tick
  endWait : ∀ s k, P s → P (s.endWait k)
  setKey : ∀ s k down, P s → P (s.setKey k down)

theorem StepInvariant.step {P : State → Prop} (inv : StepInvariant P) {s t : State} (hs : P s) (h : step s = .next t) : P t := by
  have he : P s.takeEvent := inv.takeEvent s hs
  rcases step_cases h with ⟨hc, u, hu, hcyc⟩ | rfl | ⟨-, rfl⟩ | ⟨-, bytes, -, rfl⟩ | ⟨hl, -, rfl⟩ | ⟨-, -, rfl⟩ | ⟨-, -, rfl⟩ |
    ⟨-, -, k, -, rfl⟩ | ⟨-, k, -, rfl⟩
  · obtain ⟨hr, hg⟩ : s.runCpu = true ∧ s.gate = .running := by simpa [State.cycleEnabled] using hc
    obtain rfl | rfl := hu
    · exact inv.cycle _ _ hs hr hg hcyc
    · exact inv.cycle _ _ he (by simpa using hr) (by simpa using hg) hcyc
  · exact he
  · exact inv.reconstruct _ he
  · exact inv.load _ bytes he
  · exact inv.start _ he (by simpa using hl)
  · exact inv.stop _ he
  · exact inv.tick _ he
  · obtain hk | hk | hk := s.takeEvent.keyDown_cases k
    · rwa [hk]
    · rw [hk]; exact inv.setKey _ k true he
    · rw [hk]; exact inv.endWait _ k (inv.setKey _ k true he)
  · obtain hk | hk := s.takeEvent.keyUp_cases k
    · rwa [hk]
    · rw [hk]; exact inv.setKey _ k false he

theorem reset_mem_wf : Memory.wf State.reset.mem := by decide

theorem reset_pcBounded : State.reset.PcBounded := by decide

theorem reset_controlConsistent : State.reset.ControlConsistent := by decide

/-- Settles O59: the empty memory, PC 0x200 with no entry in use, and an idle core. -/
theorem resetMeetsTheInvariants : Obligations.ResetMeetsTheInvariants :=
  ⟨reset_mem_wf, reset_pcBounded, reset_controlConsistent⟩

theorem memoryCanonical_stepInvariant : StepInvariant (fun s => Memory.wf s.mem) where
  takeEvent s hs := by simpa using hs
  cycle _ _ hs hr _ h := cpuCycle_keeps_memory_canonical hs hr h
  reconstruct _ _ := reset_mem_wf
  load _ bytes hs := State.load_mem_wf hs bytes
  start _ hs _ := hs
  stop _ hs := hs
  tick _ hs := hs
  endWait _ _ hs := hs
  setKey s k down hs := by simpa using hs

/-- Settles O56: stores, loads of programs and the reset are the only steps that touch memory. -/
theorem stepKeepsMemoryCanonical : Obligations.StepKeepsMemoryCanonical :=
  fun _ _ hs h => memoryCanonical_stepInvariant.step hs h

theorem pcBounded_stepInvariant : StepInvariant State.PcBounded where
  takeEvent s hs := by simpa [State.PcBounded, State.StackBounded] using hs
  cycle _ _ hs hr _ h := cpuCycle_keeps_pcBounded hs hr h
  reconstruct _ _ := reset_pcBounded
  load s bytes hs := by obtain ⟨-, he⟩ | he := s.load_cases bytes <;> rw [he] <;> exact hs
  start _ hs _ := hs
  stop _ hs := hs
  tick _ hs := hs
  endWait _ _ hs := hs
  setKey s k down hs := by simpa [State.PcBounded, State.StackBounded] using hs

/-- Settles O57: only CPU cycles and the reset move PC or the stack. -/
theorem stepKeepsPcBounded : Obligations.StepKeepsPcBounded :=
  fun _ _ hs h => pcBounded_stepInvariant.step hs h

theorem controlConsistent_stepInvariant : StepInvariant State.ControlConsistent where
  takeEvent s hs := by simpa [State.ControlConsistent] using hs
  cycle _ _ hs hr hg h := cpuCycle_keeps_controlConsistent hs hr hg h
  reconstruct _ _ := reset_controlConsistent
  load s bytes hs := by obtain ⟨-, he⟩ | he := s.load_cases bytes <;> rw [he] <;> exact hs
  start s hs hl := by
    obtain ⟨-, -, -, hidle, -⟩ := hs
    obtain ⟨hg, hf⟩ := hidle hl
    simp [State.ControlConsistent, hg, hf]
  stop s hs := by simp [State.ControlConsistent]
  tick _ hs := hs
  endWait s k hs := by
    obtain ⟨htmr, hcpu, hfault, hidle, -⟩ := hs
    exact ⟨htmr, hcpu, hfault, fun hl => ⟨rfl, (hidle hl).2⟩, fun hg => by simp at hg⟩
  setKey s k down hs := by simpa [State.ControlConsistent] using hs

/-- Settles O58: a cycle runs only with the gate open and no fault on record, so a fault it takes meets no waiting key. -/
theorem stepKeepsControlConsistent : Obligations.StepKeepsControlConsistent :=
  fun _ _ hs h => controlConsistent_stepInvariant.step hs h

/-! ### The outputs and the count of a cycle -/

/-- Settles O11: a faulting cycle leaves the cleared `dirty`, a completed one has what its instruction made of it. -/
theorem dirtyExactlyAfterClsAndDrw : Obligations.DirtyExactlyAfterClsAndDrw := by
  intro s t i hr hf hd h
  rcases cpuCycle_running_cases hr h with ⟨hf', -⟩ | ⟨-, r, rfl⟩ | ⟨-, j, u, hj, ho, hu, rfl⟩
  · simp [hf] at hf'
  · simp
  · obtain rfl : i = j := by simpa [hd] using hj
    simpa [hu] using ho.dirty_iff rfl

/-- Settles O13: only the completion of a cycle counts. -/
theorem cyclesCountInTheBatch : Obligations.CyclesCountInTheBatch := by
  intro s t hr h
  rcases cpuCycle_running_cases hr h with ⟨-, r, rfl⟩ | ⟨-, r, rfl⟩ | ⟨-, i, u, -, ho, hu, rfl⟩
  · simp
  · simp
  · simp [hu, ho.outsideKept.bc, Fin.val_add]

/-! ### Who writes what -/

/-- Settles O53: the table of writers, for the pieces the statement names. -/
theorem writersOfTheSpecialRegistersAndMemories : Obligations.WritersOfTheSpecialRegistersAndMemories := by
  intro i s t h
  obtain ⟨hi, hsp, hstack, hdt, hst, hdraws, hmem, hfb, -, -⟩ := exec_writers h
  exact ⟨hi, hsp, hstack, hdt, hst, hdraws, hmem, hfb⟩

theorem flagOf_zero_or_one (c : Bool) : flagOf c = 0 ∨ flagOf c = 1 := by cases c <;> simp [flagOf]

theorem lowBitFlag_zero_or_one (a : Byte) : lowBitFlag a = 0 ∨ lowBitFlag a = 1 := by
  revert a; decide

theorem highBitFlag_zero_or_one (a : Byte) : highBitFlag a = 0 ∨ highBitFlag a = 1 := by
  revert a; decide

/-- A register write that changes VF names it. -/
theorem State.eq_vf_of_setReg_changes {s : State} {x : Nibble} {b : Byte} (h : (s.setReg x b).reg vf ≠ s.reg vf) : x = vf := by
  by_contra hx
  exact h (s.reg_setReg_other b (Ne.symm hx))

/-- Of the loads of V0 to VX only the one with X = 0xF reaches VF. -/
theorem State.eq_vf_of_loadRegs_changes {s : State} {x : Nibble} {a : Nat}
    (h : (s.setRegsFrom 0 (s.memReadList a (x.toNat + 1))).reg vf ≠ s.reg vf) : x = vf := by
  by_contra hx
  have hlt : x.toNat + 1 ≤ vf.toNat := by
    have := x.isLt
    have : x.toNat ≠ vf.toNat := fun e => hx (BitVec.eq_of_toNat_eq e)
    simp [vf] at this ⊢; omega
  refine h ?_
  rw [State.reg_setRegsFrom _ _ _ (by simp [vf] at hlt ⊢; omega), if_pos (Nat.zero_le _), List.getD_eq_default]
  simpa using hlt

/-- Settles O54: an own effect writes VF as a flag, or as the register it names; a fault writes no register. -/
theorem writersOfTheFlagRegister : Obligations.WritersOfTheFlagRegister := by
  intro i s t h hne
  obtain ⟨space, k, -, rfl⟩ | ho := exec_next_cases h
  · exact absurd rfl hne
  cases i with
  | addReg x y => subst ho; simpa [State.reg_setRegFlag, carryFlag] using flagOf_zero_or_one _
  | subReg x y => subst ho; simpa [State.reg_setRegFlag, greaterFlag] using flagOf_zero_or_one _
  | shr x y => subst ho; simpa [State.reg_setRegFlag] using lowBitFlag_zero_or_one _
  | shl x y => subst ho; simpa [State.reg_setRegFlag] using highBitFlag_zero_or_one _
  | drw x y n => obtain ⟨-, rfl⟩ := ho; simpa [State.draw_reg, collisionFlag] using flagOf_zero_or_one _
  | ldImm x | addImm x | ldReg x | orReg x | andReg x | xorReg x | rnd x | ldVxDt x =>
    subst ho; obtain rfl := State.eq_vf_of_setReg_changes hne; simp
  | loadRegs x => obtain ⟨-, rfl⟩ := ho; obtain rfl := State.eq_vf_of_loadRegs_changes hne; simp
  | seImm | sneImm | seReg | sneReg | skp | sknp => obtain ⟨c, rfl⟩ := ho; exact absurd (s.skipIf_reg c vf) hne
  | ret | call | ldB | storeRegs => obtain ⟨_, rfl⟩ := ho; exact absurd rfl hne
  | _ => subst ho; exact absurd rfl hne

/-- Settles O55: an own effect leaves the outside alone, and a fault writes FAULT and RUN_CPU only. -/
theorem noInstructionReachesTheOutside : Obligations.NoInstructionReachesTheOutside := by
  intro i s t h
  have hwait := (exec_writers h).wait
  obtain ⟨space, k, -, rfl⟩ | ho := exec_next_cases h
  · refine ⟨rfl, rfl, rfl, rfl, rfl, rfl, rfl, rfl, rfl, hwait, fun _ => ⟨rfl, ?_⟩, fun hne => ⟨?_, rfl⟩⟩
    · rw [State.faulted_fault]; split <;> simp_all
    · by_contra hs
      simp [State.faulted_fault, hs] at hne
  · obtain ⟨hkeys, hlife, hcpu, htmr, hbc, htone, hfault, hshown, hrejected, hagenda, hcount⟩ := ho.outsideKept
    exact ⟨hkeys, hlife, htmr, hbc, htone, hshown, hrejected, hagenda, hcount, hwait, fun hne => absurd hcpu hne,
      fun hne => absurd hfault hne⟩

/-! ### Reset -/

/-- Settles O51: memory after reset is the empty list, every other piece a literal. -/
theorem resetValues : Obligations.ResetValues := by
  refine ⟨rfl, ?_, rfl, rfl, ?_, rfl, rfl, rfl, fun _ => rfl, fun p => BitVec.getLsbD_zero, ?_, rfl, rfl, rfl, rfl, rfl, rfl, rfl⟩
  · exact fun r => Vector.getElem_replicate _
  · exact fun k => Vector.getElem_replicate _
  · exact fun k => Vector.getElem_replicate _

end Sys2Proof.Machine
end

section
/-! PROOFS. The statements of the family 20_memory.md: what a fetch reads and when it faults, what a store at I leaves for the next fetch,
and what `load` writes. -/

namespace Sys2Proof.Machine

/-! ### The fetch (20_memory.md R54) -/

/-- The byte at the lower address is the high one (20_memory.md R55). -/
theorem wordOfBytes_toNat (hi lo : Byte) : (wordOfBytes hi lo).toNat = 256 * hi.toNat + lo.toNat := by
  have : lo.toNat < 2 ^ 8 := lo.isLt
  rw [wordOfBytes, BitVec.toNat_append, ← Nat.shiftLeft_add_eq_or_of_lt this, Nat.shiftLeft_eq, Nat.mul_comm]

/-- Where a cycle is next and enabled, the step is that cycle (60_exceptions.md R172). -/
theorem step_of_cycle {s : State} (he : s.nextEvent = .cycle) (hr : s.runCpu = true) (hg : s.gate = .running) :
    step s = cpuCycle s.takeEvent := by
  simp [step, runEvent, he, State.cycleEnabled, hr, hg]

/-- The fetch check comes first (60_exceptions.md R167). -/
theorem cpuCycle_of_fetch_outside {s : State} (h : 0xFFE < s.pc.toNat) :
    cpuCycle s = .next (s.clearDirty.takeFault (outOfBoundsRecord none s.pc .fetch s.pc.toNat)) := by
  rw [cpuCycle, if_neg]
  rw [s.canFetch_iff]; omega

/-- A fault entry with no fault on record yet writes the record (60_exceptions.md R165). -/
theorem State.takeFault_of_faultFree {s : State} (h : s.fault = none) (r : FaultRecord) :
    s.takeFault r = { s with fault := some r, runCpu := false } := by
  simp [State.takeFault, h]

/-- Settles O7: the fetched word is its two bytes put together, and past 0xFFE the fetch check raises the fault. -/
theorem fetchReadsTwoBytesOrFaults : Obligations.FetchReadsTwoBytesOrFaults := by
  refine fun s => ⟨wordOfBytes_toNat _ _, fun he hr hg hpc hf => ?_⟩
  refine ⟨outOfBoundsRecord none s.pc .fetch s.pc.toNat, rfl, rfl, rfl, rfl, ?_⟩
  have hf' : s.takeEvent.clearDirty.fault = none := by simpa using hf
  rw [step_of_cycle he hr hg, cpuCycle_of_fetch_outside (by simpa using hpc), State.takeFault_of_faultFree hf']
  simp [State.clearDirty]

/-! ### Stores at I (44_index_memory.md R143, R144) -/

/-- A store whose addresses all lie in MEM writes its bytes. -/
theorem State.storeAtI_of_room {s : State} {bs : List Byte} (i : Instr) (h : s.i.toNat + bs.length ≤ 4096) :
    s.storeAtI i bs = .next (s.memWriteList s.i.toNat bs) := by
  obtain ⟨a, ha, -⟩ | ⟨-, he⟩ := s.storeAtI_cases i bs
  · obtain ⟨hout, -, hlt, -⟩ := firstOutside_some ha
    simp only [State.dataBase] at hlt
    omega
  · exact he

@[simp] theorem decimalDigits_length (b : Byte) : (decimalDigits b).length = 3 := rfl

theorem exec_storeRegs_of_room {x : Nibble} {s : State} (h : s.i.toNat + x.toNat ≤ 0xFFF) :
    exec (.storeRegs x) s = .next (s.memWriteList s.i.toNat (s.regsUpTo x)) :=
  State.storeAtI_of_room _ (by simp; omega)

theorem exec_ldB_of_room {x : Nibble} {s : State} (h : s.i.toNat + 2 ≤ 0xFFF) :
    exec (.ldB x) s = .next (s.memWriteList s.i.toNat (decimalDigits (s.reg x))) :=
  State.storeAtI_of_room _ (by simp; omega)

/-- An address that is none of those written reads as before. -/
theorem State.memRead_memWriteList_of_ne {s : State} {a p : Nat} {bs : List Byte} (h : ∀ k < bs.length, p ≠ a + k) :
    (s.memWriteList a bs).memRead p = s.memRead p := by
  refine s.memRead_memWriteList_outside ?_
  by_contra hin
  exact h (p - a) (by omega) (by omega)

theorem State.memRead_regsStored {s : State} {x r : Nibble} {a p : Nat} (hr : r ≤ x) (hp : p = a + r.toNat) :
    (s.memWriteList a (s.regsUpTo x)).memRead p = s.reg r := by
  have hlen : r.toNat < (s.regsUpTo x).length := by
    have : r.toNat ≤ x.toNat := hr
    simp; omega
  rw [hp, State.memRead_memWriteList_inside _ _ _ _ hlen, State.regsUpTo_getElem]

theorem State.memRead_regsStored_of_ne {s : State} {x : Nibble} {a p : Nat} (h : ∀ r : Nibble, r ≤ x → p ≠ a + r.toNat) :
    (s.memWriteList a (s.regsUpTo x)).memRead p = s.memRead p := by
  refine State.memRead_memWriteList_of_ne fun k hk => ?_
  rw [State.regsUpTo_length] at hk
  have hx := x.isLt
  have hkr : (BitVec.ofNat 4 k).toNat = k := by simp; omega
  have hle : BitVec.ofNat 4 k ≤ x := by rw [BitVec.le_def, hkr]; omega
  simpa only [hkr] using h (BitVec.ofNat 4 k) hle

/-- The digits stand in the order hundreds, tens, units (44_index_memory.md R143). -/
theorem decimalDigits_getElem_toNat (b : Byte) (k : Nat) (hk : k < (decimalDigits b).length) :
    (decimalDigits b)[k].toNat = b.toNat / 10 ^ (2 - k) % 10 := by
  have hb := b.isLt
  obtain rfl | rfl | rfl : k = 0 ∨ k = 1 ∨ k = 2 := by simp at hk; omega
  · simp [decimalDigits]; omega
  · simp [decimalDigits]
  · simp [decimalDigits]

theorem State.memRead_digitsStored {s : State} {b : Byte} {a p k : Nat} (hk : k < 3) (hp : p = a + k) :
    ((s.memWriteList a (decimalDigits b)).memRead p).toNat = b.toNat / 10 ^ (2 - k) % 10 := by
  have hlen : k < (decimalDigits b).length := by simpa using hk
  rw [hp, State.memRead_memWriteList_inside _ _ _ _ hlen, decimalDigits_getElem_toNat]

theorem State.memRead_digitsStored_of_ne {s : State} {b : Byte} {a p : Nat} (h : ∀ k < 3, p ≠ a + k) :
    (s.memWriteList a (decimalDigits b)).memRead p = s.memRead p :=
  State.memRead_memWriteList_of_ne (by simpa using h)

/-- Settles O38: the fetch after a store reads the written memory, at PC and at PC + 1. -/
theorem storedBytesAreFetchedNext : Obligations.StoredBytesAreFetchedNext := by
  refine fun x s => ⟨fun h => ⟨_, exec_storeRegs_of_room h, rfl, _, _, rfl, ?_⟩,
    fun h => ⟨_, exec_ldB_of_room h, rfl, _, _, rfl, ?_⟩⟩
  · exact ⟨fun r hr => ⟨State.memRead_regsStored hr, State.memRead_regsStored hr⟩,
      State.memRead_regsStored_of_ne, State.memRead_regsStored_of_ne⟩
  · exact ⟨fun k hk => ⟨State.memRead_digitsStored hk, State.memRead_digitsStored hk⟩,
      State.memRead_digitsStored_of_ne, State.memRead_digitsStored_of_ne⟩

/-! ### `load` (70_reset_and_hazards.md R191) -/

theorem step_of_load {s : State} {bytes : List Byte} (he : s.nextEvent = .load bytes) (hl : s.life = .idle) :
    step s = .next (s.takeEvent.load bytes) := by
  simp [step, runEvent, he, hl]

theorem State.load_of_fits (s : State) {bytes : List Byte} (h : bytes.length ≤ 3584) :
    s.load bytes = { (s.memWriteList 0 fontTable).memWriteList 0x200 bytes with rejected := none } :=
  if_pos (decide_eq_true h)

theorem State.load_of_too_long (s : State) {bytes : List Byte} (h : 3584 < bytes.length) :
    s.load bytes = { s with rejected := some (.load, bytes.length) } :=
  if_neg fun hfits => Nat.not_le_of_lt h (of_decide_eq_true hfits)

/-- A read after a load is a read after its two writes. -/
theorem State.memRead_load (s : State) {bytes : List Byte} (h : bytes.length ≤ 3584) (a : Nat) :
    (s.load bytes).memRead a = ((s.memWriteList 0 fontTable).memWriteList 0x200 bytes).memRead a := by
  rw [s.load_of_fits h]; rfl

@[simp] theorem fontTable_length : fontTable.length = 80 := by simp [fontTable, Config.fontBytes]

theorem fontTable_getElem (n : Nat) (h : n < fontTable.length) : fontTable[n] = Config.font n := by simp [fontTable]

theorem State.memRead_load_font (s : State) {bytes : List Byte} (h : bytes.length ≤ 3584) {n : Nat} (hn : n < 80) :
    (s.load bytes).memRead n = Config.font n := by
  have hfont : n < fontTable.length := by simpa using hn
  calc (s.load bytes).memRead n
      = (s.memWriteList 0 fontTable).memRead n := by
        rw [s.memRead_load h, State.memRead_memWriteList_outside _ (.inl (by omega))]
    _ = fontTable[n] := by simpa using s.memRead_memWriteList_inside 0 n fontTable hfont
    _ = Config.font n := fontTable_getElem n hfont

theorem State.memRead_load_program (s : State) {bytes : List Byte} (h : bytes.length ≤ 3584) {n : Nat} (hn : n < bytes.length) :
    (s.load bytes).memRead (0x200 + n) = bytes[n] := by
  rw [s.memRead_load h, State.memRead_memWriteList_inside _ _ _ _ hn]

theorem State.memRead_load_other (s : State) {bytes : List Byte} (h : bytes.length ≤ 3584) {a : Nat} (hfont : 80 ≤ a)
    (hprog : a < 0x200 ∨ 0x200 + bytes.length ≤ a) : (s.load bytes).memRead a = s.memRead a := by
  rw [s.memRead_load h, State.memRead_memWriteList_outside _ hprog, State.memRead_memWriteList_outside _ (.inr (by simpa using hfont))]

/-- Settles O46: the font ends below 0x200, so the program's write leaves it standing. -/
theorem loadWritesFontAndProgram : Obligations.LoadWritesFontAndProgram := by
  refine fun s bytes he hl => ⟨fun h => ⟨_, step_of_load he hl, ?_, ?_, ?_, ?_⟩, fun h => ?_⟩
  · exact fun n hn => State.memRead_load_font _ h hn
  · exact fun n hn => State.memRead_load_program _ h hn
  · intro a hfont hprog
    rw [State.memRead_load_other _ h hfont hprog, State.takeEvent_memRead]
  · rw [State.load_of_fits _ h]; rfl
  · rw [step_of_load he hl, State.load_of_too_long _ h]

end Sys2Proof.Machine
end

section
/-! PROOFS. The statements of the family 30_encoding.md. A word is its fields, so an instruction's word is read back field by field, and
every answer of the decision tree is an instruction whose word was given (`decode_answersFor`). What the opcode map and the list of
illegal words say of the tree follows from the digits they fix. -/

namespace Sys2Proof

/-! ### A word is its fields (30_encoding.md R72) -/

theorem fieldOp_append_fieldNNN (w : Word) : fieldOp w ++ fieldNNN w = w :=
  (BitVec.extractLsb'_append_extractLsb'_eq_extractLsb' rfl).trans BitVec.extractLsb'_eq_self

theorem fieldX_append_fieldNN (w : Word) : fieldX w ++ fieldNN w = fieldNNN w :=
  BitVec.extractLsb'_append_extractLsb'_eq_extractLsb' rfl

theorem fieldY_append_fieldN (w : Word) : fieldY w ++ fieldN w = fieldNN w :=
  BitVec.extractLsb'_append_extractLsb'_eq_extractLsb' rfl

section
variable {v w : Word} (hop : fieldOp v = fieldOp w)
include hop

theorem word_ext_nnn (hnnn : fieldNNN v = fieldNNN w) : v = w := by
  rw [← fieldOp_append_fieldNNN v, ← fieldOp_append_fieldNNN w, hop, hnnn]

theorem word_ext_nn (hx : fieldX v = fieldX w) (hnn : fieldNN v = fieldNN w) : v = w :=
  word_ext_nnn hop (by rw [← fieldX_append_fieldNN v, ← fieldX_append_fieldNN w, hx, hnn])

theorem word_ext_n (hx : fieldX v = fieldX w) (hy : fieldY v = fieldY w) (hn : fieldN v = fieldN w) : v = w :=
  word_ext_nn hop hx (by rw [← fieldY_append_fieldN v, ← fieldY_append_fieldN w, hy, hn])

end

/-! ### The fields of a literal word -/

theorem extractLsb'_ofNat {k l : Nat} (h : k + l ≤ 16) (n : Nat) :
    (BitVec.ofNat 16 n).extractLsb' k l = BitVec.ofNat l (n / 2 ^ k) := by
  apply BitVec.eq_of_getLsbD_eq
  intro j hj
  have hkj : k + j < 16 := by omega
  simp only [BitVec.getLsbD_extractLsb', BitVec.getLsbD_ofNat, Nat.testBit_div_two_pow, hj, hkj, Nat.add_comm j k, decide_true,
    Bool.true_and]

@[simp] theorem fieldOp_ofNat (n : Nat) : fieldOp (BitVec.ofNat 16 n) = BitVec.ofNat 4 (n / 2 ^ 12) :=
  extractLsb'_ofNat (by decide) n
@[simp] theorem fieldX_ofNat (n : Nat) : fieldX (BitVec.ofNat 16 n) = BitVec.ofNat 4 (n / 2 ^ 8) := extractLsb'_ofNat (by decide) n
@[simp] theorem fieldY_ofNat (n : Nat) : fieldY (BitVec.ofNat 16 n) = BitVec.ofNat 4 (n / 2 ^ 4) := extractLsb'_ofNat (by decide) n
@[simp] theorem fieldN_ofNat (n : Nat) : fieldN (BitVec.ofNat 16 n) = BitVec.ofNat 4 (n / 2 ^ 0) := extractLsb'_ofNat (by decide) n
@[simp] theorem fieldNN_ofNat (n : Nat) : fieldNN (BitVec.ofNat 16 n) = BitVec.ofNat 8 (n / 2 ^ 0) :=
  extractLsb'_ofNat (by decide) n
@[simp] theorem fieldNNN_ofNat (n : Nat) : fieldNNN (BitVec.ofNat 16 n) = BitVec.ofNat 12 (n / 2 ^ 0) :=
  extractLsb'_ofNat (by decide) n

/-! ### Decoding after encoding (30_encoding.md R75, R84) -/

/-- Format by format: the pattern's op selects the family, and the placed fields are read back. -/
theorem decode_encode (i : Instr) : decode (encode i) = .ok i := by
  cases i with
  | cls | ret => decide
  | jp | call | ldI | jpV0 => simp [encode, encodeA, decode]
  | seImm | sneImm | ldImm | addImm | rnd => simp [encode, encodeXB, decode]
  | seReg | sneReg | drw => simp [encode, encodeXYN, decode]
  | ldReg | orReg | andReg | xorReg | addReg | subReg | shr | shl => simp [encode, encodeXYN, decode, decodeFamily8]
  | skp | sknp => simp [encode, encodeXB, decode, decodeFamilyE]
  | ldVxDt | ldVxK | ldDtVx | ldStVx | addI | ldF | ldB | storeRegs | loadRegs =>
    simp [encode, encodeXB, decode, decodeFamilyF]

/-- Settles O1: the fields of the encoded word are the instruction's own. -/
theorem decodeOfEncodeIsTheInstruction : Obligations.DecodeOfEncodeIsTheInstruction := decode_encode

/-! ### Encoding after decoding -/

section
variable {p w : Word} (hop : fieldOp w = fieldOp p)
include hop

theorem encodeA_eq_of_fields (hp : fieldNNN p = 0) : encodeA p (fieldNNN w) = w :=
  word_ext_nnn (by simp [encodeA, hop]) (by simp [encodeA, hp])

theorem encodeXB_eq_of_fields {nn : Byte} (hx : fieldX p = 0) (hnn : fieldNN p = 0) (h : fieldNN w = nn) :
    encodeXB p (fieldX w) nn = w :=
  word_ext_nn (by simp [encodeXB, hop]) (by simp [encodeXB, hx]) (by simp [encodeXB, hnn, h])

theorem encodeXYN_eq_of_fields {n : Nibble} (hx : fieldX p = 0) (hy : fieldY p = 0) (hn : fieldN p = 0) (h : fieldN w = n) :
    encodeXYN p (fieldX w) (fieldY w) n = w :=
  word_ext_n (by simp [encodeXYN, hop]) (by simp [encodeXYN, hx]) (by simp [encodeXYN, hy]) (by simp [encodeXYN, hn, h])

end

/-- What the decoder may answer for the word `w`: an instruction whose word is `w`, or `w` rejected by name. -/
inductive AnswersFor (w : Word) : Except DecodeError Instr → Prop where
  | ok {i : Instr} (h : encode i = w) : AnswersFor w (.ok i)
  | unknown : AnswersFor w (.error (.unknownOpcode w))

theorem decodeFamily0_answersFor (w : Word) : AnswersFor w (decodeFamily0 w) := by
  unfold decodeFamily0
  split_ifs with hcls hret
  · exact .ok hcls.symm
  · exact .ok hret.symm
  · exact .unknown

theorem decodeFamily8_answersFor {w : Word} (hop : fieldOp w = 8) : AnswersFor w (decodeFamily8 w) := by
  unfold decodeFamily8
  split <;> rename_i hn
  case h_9 => exact .unknown
  all_goals exact .ok (encodeXYN_eq_of_fields hop rfl rfl rfl (BitVec.eq_of_toNat_eq hn))

theorem decodeFamilyE_answersFor {w : Word} (hop : fieldOp w = 0xE) : AnswersFor w (decodeFamilyE w) := by
  unfold decodeFamilyE
  split_ifs with hskp hsknp
  · exact .ok (encodeXB_eq_of_fields hop rfl rfl hskp)
  · exact .ok (encodeXB_eq_of_fields hop rfl rfl hsknp)
  · exact .unknown

theorem decodeFamilyF_answersFor {w : Word} (hop : fieldOp w = 0xF) : AnswersFor w (decodeFamilyF w) := by
  unfold decodeFamilyF
  split_ifs
  case neg => exact .unknown
  all_goals exact .ok (encodeXB_eq_of_fields hop rfl rfl ‹_›)

/-- The arms of the tree are numbered from op 0 on (`h_1`); the last one, `h_17`, is that of no op. -/
theorem decode_answersFor (w : Word) : AnswersFor w (decode w) := by
  unfold decode
  split <;> rename_i hop
  case h_17 => exact .unknown
  case h_1 => exact decodeFamily0_answersFor w
  case h_9 => exact decodeFamily8_answersFor (BitVec.eq_of_toNat_eq hop)
  case h_15 => exact decodeFamilyE_answersFor (BitVec.eq_of_toNat_eq hop)
  case h_16 => exact decodeFamilyF_answersFor (BitVec.eq_of_toNat_eq hop)
  case h_2 | h_3 | h_11 | h_12 => exact .ok (encodeA_eq_of_fields (BitVec.eq_of_toNat_eq hop) rfl)
  case h_4 | h_5 | h_7 | h_8 | h_13 => exact .ok (encodeXB_eq_of_fields (BitVec.eq_of_toNat_eq hop) rfl rfl rfl)
  case h_14 => exact .ok (encodeXYN_eq_of_fields (BitVec.eq_of_toNat_eq hop) rfl rfl rfl rfl)
  case h_6 | h_10 =>
    split_ifs with hn
    · exact .ok (encodeXYN_eq_of_fields (BitVec.eq_of_toNat_eq hop) rfl rfl rfl hn)
    · exact .unknown

theorem encode_of_decode {w : Word} {i : Instr} (h : decode w = .ok i) : encode i = w := by
  have ha := decode_answersFor w
  rw [h] at ha
  cases ha with
  | ok he => exact he

theorem eq_unknownOpcode_of_decode {w : Word} {e : DecodeError} (h : decode w = .error e) : e = .unknownOpcode w := by
  have ha := decode_answersFor w
  rw [h] at ha
  cases ha with
  | unknown => rfl

/-- Settles O2: the digits an arm of the tree tests are the instruction's, and it keeps the others as fields. -/
theorem encodeOfDecodedIsTheWord : Obligations.EncodeOfDecodedIsTheWord := fun _ _ => encode_of_decode

/-! ### The opcode map (30_encoding.md R75, R76) -/

/-- A field that the mask selects whole is the pattern's. -/
theorem extractLsb'_eq_of_and {w m p : Word} {k l : Nat} (h : w &&& m = p) (hm : m.extractLsb' k l = BitVec.allOnes l) :
    w.extractLsb' k l = p.extractLsb' k l := by
  rw [← h, BitVec.extractLsb'_and, hm, BitVec.and_allOnes]

theorem row_mask_op (i : Instr) : i.row.mask.extractLsb' 12 4 = BitVec.allOnes 4 := by
  cases i <;> simp only [Instr.row] <;> decide

/-- The digits that a row fixes are all that the tree tests on the way to the row's instruction. -/
theorem decode_map_row {i : Instr} {w : Word} (h : w &&& i.row.mask = i.row.pattern) : (decode w).map Instr.row = .ok i.row := by
  have hop : fieldOp w = fieldOp i.row.pattern := extractLsb'_eq_of_and h (row_mask_op i)
  cases i with
  | cls | ret =>
    have hw : w.extractLsb' 0 16 = _ := extractLsb'_eq_of_and (m := 0xFFFF) h (by decide)
    rw [BitVec.extractLsb'_eq_self, BitVec.extractLsb'_eq_self] at hw
    rw [hw]
    rfl
  | jp | call | seImm | sneImm | ldImm | addImm | ldI | jpV0 | rnd | drw => simp [decode, hop, Instr.row, Except.map]
  | seReg | sneReg =>
    have hn : fieldN w = fieldN _ := extractLsb'_eq_of_and (m := 0xF00F) h (by decide)
    simp [decode, hop, hn, Instr.row, Except.map]
  | ldReg | orReg | andReg | xorReg | addReg | subReg | shr | shl =>
    have hn : fieldN w = fieldN _ := extractLsb'_eq_of_and (m := 0xF00F) h (by decide)
    simp [decode, decodeFamily8, hop, hn, Instr.row, Except.map]
  | skp | sknp =>
    have hnn : fieldNN w = fieldNN _ := extractLsb'_eq_of_and (m := 0xF0FF) h (by decide)
    simp [decode, decodeFamilyE, hop, hnn, Instr.row, Except.map]
  | ldVxDt | ldVxK | ldDtVx | ldStVx | addI | ldF | ldB | storeRegs | loadRegs =>
    have hnn : fieldNN w = fieldNN _ := extractLsb'_eq_of_and (m := 0xF0FF) h (by decide)
    simp [decode, decodeFamilyF, hop, hnn, Instr.row, Except.map]

theorem exists_ok_of_map_row {d : Except DecodeError Instr} {r : OpcodeRow} (h : d.map Instr.row = .ok r) :
    ∃ i, d = .ok i ∧ i.row = r := by
  cases d with
  | error e => cases h
  | ok i => exact ⟨i, rfl, Except.ok.inj h⟩

theorem decode_pattern_map_row : ∀ r ∈ opcodeRows, (decode r.pattern).map Instr.row = .ok r := by decide

theorem exists_decode_of_fits {r : OpcodeRow} {w : Word} (hr : r ∈ opcodeRows) (h : w &&& r.mask = r.pattern) :
    ∃ i, decode w = .ok i ∧ i.row = r := by
  obtain ⟨i, -, rfl⟩ := exists_ok_of_map_row (decode_pattern_map_row r hr)
  exact exists_ok_of_map_row (decode_map_row h)

open Laws.EncodeFitsRow in
theorem encode_fits_row : ∀ i : Instr, Statement i
  | .cls => cls | .ret => ret | .jp a => jp a | .call a => call a
  | .seImm x b => seImm x b | .sneImm x b => sneImm x b | .seReg x y => seReg x y
  | .ldImm x b => ldImm x b | .addImm x b => addImm x b
  | .ldReg x y => ldReg x y | .orReg x y => orReg x y | .andReg x y => andReg x y | .xorReg x y => xorReg x y
  | .addReg x y => addReg x y | .subReg x y => subReg x y | .shr x y => shr x y | .shl x y => shl x y
  | .sneReg x y => sneReg x y | .ldI a => ldI a | .jpV0 a => jpV0 a | .rnd x b => rnd x b | .drw x y n => drw x y n
  | .skp x => skp x | .sknp x => sknp x | .ldVxDt x => ldVxDt x | .ldVxK x => ldVxK x | .ldDtVx x => ldDtVx x
  | .ldStVx x => ldStVx x | .addI x => addI x | .ldF x => ldF x | .ldB x => ldB x
  | .storeRegs x => storeRegs x | .loadRegs x => loadRegs x

theorem fits_of_decode {w : Word} {i : Instr} (h : decode w = .ok i) :
    i.row ∈ opcodeRows ∧ w &&& i.row.mask = i.row.pattern := by
  obtain ⟨hrow, hfits⟩ := encode_fits_row i
  rw [encode_of_decode h] at hfits
  exact ⟨hrow, eq_of_beq hfits⟩

/-- Settles O3: a word that fits a row decodes to an instruction of that row, so to one row only, and a word that decodes fits the row of
its instruction. -/
theorem decodesExactlyTheWordsOfTheOpcodeMap : Obligations.DecodesExactlyTheWordsOfTheOpcodeMap := by
  refine fun w => ⟨fun r₁ hr₁ r₂ hr₂ h₁ h₂ => ?_, ⟨?_, ?_⟩, fun hno => ?_⟩
  · obtain ⟨i, hi, rfl⟩ := exists_decode_of_fits hr₁ h₁
    obtain ⟨j, hj, rfl⟩ := exists_decode_of_fits hr₂ h₂
    rw [Except.ok.inj (hi.symm.trans hj)]
  · rintro ⟨i, hi⟩
    obtain ⟨hrow, hfits⟩ := fits_of_decode hi
    exact ⟨i.row, hrow, hfits⟩
  · rintro ⟨r, hr, h⟩
    obtain ⟨i, hi, -⟩ := exists_decode_of_fits hr h
    exact ⟨i, hi⟩
  · cases hw : decode w with
    | ok i =>
      obtain ⟨hrow, hfits⟩ := fits_of_decode hw
      exact absurd hfits (hno _ hrow)
    | error e => rw [eq_unknownOpcode_of_decode hw]

/-! ### The illegal words (30_encoding.md R78) -/

theorem shiftRight_12_eq_iff (w k : Word) : w >>> 12 = k ↔ (fieldOp w).toNat = k.toNat := by
  have := w.isLt
  rw [BitVec.toNat_eq]
  simp [fieldOp, Nat.shiftRight_eq_div_pow]; omega

theorem and_0xF_toNat (w : Word) : (w &&& 0xF).toNat = (fieldN w).toNat := by
  simp [fieldN, Nat.and_two_pow_sub_one_eq_mod _ 4]

theorem and_0xFF_toNat (w : Word) : (w &&& 0xFF).toNat = (fieldNN w).toNat := by
  simp [fieldNN, Nat.and_two_pow_sub_one_eq_mod _ 8]

theorem and_0xF_ne_zero_iff (w : Word) : w &&& 0xF ≠ 0 ↔ fieldN w ≠ 0 := by
  rw [ne_eq, ne_eq, BitVec.toNat_eq, and_0xF_toNat, BitVec.toNat_eq]; rfl

theorem decodeFamily0_rejects_iff (w : Word) :
    decodeFamily0 w = .error (.unknownOpcode w) ↔ w ≠ 0x00E0 ∧ w ≠ 0x00EE := by
  unfold decodeFamily0
  split_ifs <;> simp_all

/-- The eight low nibbles listed are those that no arm names. -/
theorem decodeFamily8_rejects_iff (w : Word) :
    decodeFamily8 w = .error (.unknownOpcode w) ↔ (fieldN w).toNat ∈ [0x7, 0x8, 0x9, 0xA, 0xB, 0xC, 0xD, 0xF] := by
  unfold decodeFamily8
  split
  case h_9 => simp only [List.mem_cons, List.not_mem_nil, or_false, true_iff, imp_false] at *; omega
  all_goals simp [*]

theorem decodeFamilyE_rejects_iff (w : Word) :
    decodeFamilyE w = .error (.unknownOpcode w) ↔ (fieldNN w).toNat ∉ [0x9E, 0xA1] := by
  unfold decodeFamilyE
  split_ifs <;> simp_all [BitVec.toNat_eq]

theorem decodeFamilyF_rejects_iff (w : Word) :
    decodeFamilyF w = .error (.unknownOpcode w) ↔
      (fieldNN w).toNat ∉ [0x07, 0x0A, 0x15, 0x18, 0x1E, 0x29, 0x33, 0x55, 0x65] := by
  unfold decodeFamilyF
  split_ifs <;> simp_all [BitVec.toNat_eq]

/-- Settles O4: with the list's conditions read as conditions on the fields, each arm of the tree rejects what the list says of its op;
the arms are numbered from op 0 on (`h_1`), and there is no op for the last one, `h_17`. -/
theorem illegalWordsAreThoseListedByFamily : Obligations.IllegalWordsAreThoseListedByFamily := by
  intro w
  simp only [shiftRight_12_eq_iff, and_0xF_ne_zero_iff, and_0xF_toNat, and_0xFF_toNat]
  unfold decode
  split
  case h_1 hop => simp [hop, decodeFamily0_rejects_iff]
  case h_9 hop => simp [hop, decodeFamily8_rejects_iff]
  case h_15 hop => simp [hop, decodeFamilyE_rejects_iff]
  case h_16 hop => simp [hop, decodeFamilyF_rejects_iff]
  case h_17 => exfalso; simp only [imp_false] at *; omega
  all_goals simp [*]

/-- Settles O5: the legal words are those of the instructions named, the others are four of the illegal ones. -/
theorem wordsOfTheSpecDecodeAsItSays : Obligations.WordsOfTheSpecDecodeAsItSays :=
  ⟨decode_encode (.ldImm 3 0x7F), decode_encode (.addReg 0xA 0xB), decode_encode (.drw 1 2 5), decode_encode (.sknp 0xC),
    decode_encode (.storeRegs 0xF), decode_encode (.call 0x2F0), decode_encode (.jpV0 0x123), decode_encode (.shr 4 0),
    decode_encode (.jp 0x234), by decide, by decide, by decide, by decide⟩

/-! ### The CPU cycle (30_encoding.md R70, R71) -/

namespace Machine

theorem cpuCycle_of_decode {s : State} {i : Instr} (hpc : s.pc.toNat ≤ 0xFFE) (hd : decode s.fetchWord = .ok i) :
    cpuCycle s = endCycle (exec i s.fetched) := by
  rw [cpuCycle, if_pos (s.canFetch_iff.mpr hpc), hd]

/-- Settles O6: taking the event leaves PC and memory, so the cycle fetches the word given. -/
theorem stepRunsTheDecodedInstruction : Obligations.StepRunsTheDecodedInstruction := by
  intro s i he hr hg hpc hd
  have hdecode : decode s.takeEvent.fetchWord = .ok i := by simpa [State.fetchWord, wordOfBytes] using hd
  have hfetched : s.takeEvent.fetched = { s.takeEvent with pc := s.pc + 2, dirty := false } := by
    simp [State.fetched, State.clearDirty, State.advance, State.setPc]
  have hstep : step s = endCycle (exec i { s.takeEvent with pc := s.pc + 2, dirty := false }) := by
    rw [step_of_cycle he hr hg, cpuCycle_of_decode (by simpa using hpc) hdecode, hfetched]
  refine ⟨hstep, fun t ht => ?_⟩
  rw [hstep, ht]
  rfl

end Machine

end Sys2Proof
end

section
/-! PROOFS. The statements of the family 40_display.md: what a draw writes, said of the pixels under the sprite's set bits, and its two
faults. The pixels of a sprite rise in row-major order, so the first one past the framebuffer is the least one. -/

namespace Sys2Proof.Machine

/-! ### The display sink (40_display.md R92) -/

/-- Settles O12: a faulting cycle keeps the cleared `dirty` and the old field shown, a completed one flushes as its `dirty` says. -/
theorem dirtyCyclesFlushTheFramebuffer : Obligations.DirtyCyclesFlushTheFramebuffer := by
  intro s t hr h
  rcases cpuCycle_running_cases hr h with ⟨-, r, rfl⟩ | ⟨-, r, rfl⟩ | ⟨-, i, u, -, ho, hu, rfl⟩
  · simp
  · simp
  · have hshown : u.shown = s.shown := ho.outsideKept.shown
    cases hd : u.dirty <;> simp [hd, hu, hshown]

/-! ### CLS (40_display.md R90) -/

/-- Settles O14: the framebuffer becomes the word 0. -/
theorem clsClearsEveryPixel : Obligations.ClsClearsEveryPixel :=
  ⟨decode_encode .cls, fun _ => ⟨_, rfl, fun _ _ => BitVec.getLsbD_zero, rfl, fun _ => rfl, fun _ => rfl, rfl⟩⟩

/-! ### The pixels of a sprite in row-major order (40_display.md R91) -/

theorem pixelIndex_lt {vx vy : Byte} {r c r' c' : Nat} (hc : c < 8) (h : r < r' ∨ r = r' ∧ c < c') :
    pixelIndex vx vy r c < pixelIndex vx vy r' c' := by
  unfold pixelIndex Config.fbWidth
  omega

/-- Row-major order is the order of the pixel indices: a sprite is narrower than the stride. -/
theorem spritePixels_rising (rows : List Byte) (vx vy : Byte) (r₀ : Nat) : (spritePixels vx vy r₀ rows).Pairwise (· < ·) := by
  induction rows generalizing r₀ with
  | nil => exact .nil
  | cons row rows ih =>
    refine List.pairwise_append.mpr ⟨?_, ih _, ?_⟩
    · have hcols : (setColumns row).Pairwise fun c c' => pixelIndex vx vy r₀ c < pixelIndex vx vy r₀ c' := by
        refine (List.pairwise_lt_range.filter _).imp_of_mem fun {c c'} hc _ hlt => pixelIndex_lt ?_ (.inr ⟨rfl, hlt⟩)
        exact List.mem_range.mp (List.mem_filter.mp hc).1
      exact List.pairwise_map.mpr hcols
    · intro p hp q hq
      obtain ⟨c, hc, rfl⟩ := List.mem_map.mp hp
      obtain ⟨r, c', -, -, -, rfl⟩ := (mem_spritePixels ..).mp hq
      exact pixelIndex_lt (List.mem_range.mp (List.mem_filter.mp hc).1) (.inl (by omega))

/-- The first entry of a rising list that passes a test is the least that does. -/
theorem find?_le_of_rising {l : List Nat} {P : Nat → Bool} {p q : Nat} (hl : l.Pairwise (· < ·)) (hp : l.find? P = some p)
    (hq : q ∈ l) (hPq : P q = true) : p ≤ q := by
  obtain ⟨-, as, bs, rfl, hfails⟩ := List.find?_eq_some_iff_append.mp hp
  obtain ⟨-, htail, -⟩ := List.pairwise_append.mp hl
  rcases List.mem_append.mp hq with has | hbs
  · have := hfails q has
    simp [hPq] at this
  · rcases List.mem_cons.mp hbs with rfl | hbs
    · exact Nat.le_refl _
    · exact Nat.le_of_lt (List.rel_of_pairwise_cons htail hbs)

/-! ### The collision flag -/

theorem flagOf_eq_one_iff {c : Bool} : flagOf c = 1 ↔ c = true := by cases c <;> decide

theorem flagOf_eq_zero_iff {c : Bool} : flagOf c = 0 ↔ c = false := by cases c <;> decide

/-! ### The sprite of a state (40_display.md R91) -/

section
variable {s : State} {x y n : Nibble}

theorem firstOutside_of_spriteInMemory (h : SpriteInMemory s n) : firstOutside s.dataBase n.toNat = none :=
  firstOutside_eq_none.mpr h

/-- The list the model draws from holds the pixels under the set bits, as the statements say it. -/
theorem mem_drawnPixels {p : Nat} : p ∈ s.drawnPixels x y n ↔ UnderSprite s x y n p := by
  simp only [State.drawnPixels, State.spriteRows, mem_spritePixels, State.memReadList_length, State.memReadList_getElem, Nat.zero_add]
  exact ⟨fun ⟨r, c, hr, hc, hb, hp⟩ => ⟨r, c, ⟨hr, hc, hb⟩, hp⟩, fun ⟨r, c, ⟨hr, hc, hb⟩, hp⟩ => ⟨r, c, hr, hc, hb, hp⟩⟩

theorem faultsOutOfBounds_of_exec {i : Instr} {space : Space} {k : Nat} (h : exec i s = .next (s.faulted i space k)) :
    FaultsOutOfBounds i s space k := by
  rw [FaultsOutOfBounds, h, s.faulted_eq]

/-! ### A draw on the screen -/

section
variable (hscreen : ∀ p, UnderSprite s x y n p → p ≤ 2047)
include hscreen

theorem exec_drw_of_on_screen (hmem : SpriteInMemory s n) : exec (.drw x y n) s = .next (s.draw (s.drawnPixels x y n)) := by
  rcases execDrw_cases x y n s with ⟨a, ha, -⟩ | ⟨p, -, hfind, hp, -⟩ | ⟨-, -, he⟩
  · simp [firstOutside_of_spriteInMemory hmem] at ha
  · have := hscreen p (mem_drawnPixels.mp (List.mem_of_find?_eq_some hfind))
    omega
  · exact he

/-- The write pass of a draw, whose pixels are listed once each and lie on the screen. -/
theorem drawPixels_drawnPixels_spec :
    (∀ p, (s.draw (s.drawnPixels x y n)).fb.getLsbD p = (s.fb.getLsbD p ^^ decide (p ∈ s.drawnPixels x y n))) ∧
    (drawPixels s.fb false (s.drawnPixels x y n)).2 = (s.drawnPixels x y n).any s.fb.getLsbD :=
  drawPixels_spec (s.drawnPixels x y n) s.fb false (spritePixels_nodup ..) fun p hp =>
    Nat.lt_succ_of_le (hscreen p (mem_drawnPixels.mp hp))

theorem getLsbD_draw_fb (p : Nat) :
    (s.draw (s.drawnPixels x y n)).fb.getLsbD p = (s.fb.getLsbD p ^^ decide (p ∈ s.drawnPixels x y n)) :=
  (drawPixels_drawnPixels_spec hscreen).1 p

theorem getLsbD_draw_fb_under {p : Nat} (hp : UnderSprite s x y n p) :
    (s.draw (s.drawnPixels x y n)).fb.getLsbD p = !s.fb.getLsbD p := by
  rw [getLsbD_draw_fb hscreen, decide_eq_true (mem_drawnPixels.mpr hp), Bool.xor_true]

theorem getLsbD_draw_fb_not_under {p : Nat} (hp : ¬ UnderSprite s x y n p) :
    (s.draw (s.drawnPixels x y n)).fb.getLsbD p = s.fb.getLsbD p := by
  rw [getLsbD_draw_fb hscreen, decide_eq_false (mt mem_drawnPixels.mp hp), Bool.xor_false]

theorem draw_vf : (s.draw (s.drawnPixels x y n)).reg vf = flagOf ((s.drawnPixels x y n).any s.fb.getLsbD) := by
  rw [State.draw_reg, if_pos rfl, (drawPixels_drawnPixels_spec hscreen).2, collisionFlag]

theorem draw_vf_eq_one_iff :
    (s.draw (s.drawnPixels x y n)).reg vf = 1 ↔ ∃ p, UnderSprite s x y n p ∧ s.fb.getLsbD p = true := by
  simp only [draw_vf hscreen, flagOf_eq_one_iff, List.any_eq_true, mem_drawnPixels]

theorem draw_vf_eq_zero_iff :
    (s.draw (s.drawnPixels x y n)).reg vf = 0 ↔ ¬ ∃ p, UnderSprite s x y n p ∧ s.fb.getLsbD p = true := by
  rw [← draw_vf_eq_one_iff hscreen, draw_vf hscreen, flagOf_eq_zero_iff, flagOf_eq_one_iff, Bool.not_eq_true]

end

end

/-- Settles O15: the pixels under the set bits are listed once each, so the write pass toggles each of them. -/
theorem drawTogglesThePixelsUnderTheSprite : Obligations.DrawTogglesThePixelsUnderTheSprite := by
  intro x y n s hmem hscreen
  refine ⟨decode_encode (.drw x y n), _, exec_drw_of_on_screen hscreen hmem,
    fun p _ => ⟨getLsbD_draw_fb_under hscreen, getLsbD_draw_fb_not_under hscreen⟩,
    (draw_vf_eq_one_iff hscreen).mpr, fun hoff => (draw_vf_eq_zero_iff hscreen).mpr ?_, rfl, fun r hr => ?_, fun _ => rfl, rfl⟩
  · rintro ⟨p, hp, hon⟩
    simp [hoff p hp] at hon
  · rw [State.draw_reg, if_neg hr]

/-! ### Drawing twice (90_conflicts.md C5) -/

/-- A draw writes VF alone of what names the pixels of a sprite. -/
theorem drawnPixels_draw (s : State) (ps : List Nat) {x y : Nibble} (n : Nibble) (hx : x ≠ vf) (hy : y ≠ vf) :
    (s.draw ps).drawnPixels x y n = s.drawnPixels x y n := by
  have hrows : (s.draw ps).spriteRows n = s.spriteRows n := rfl
  simp only [State.drawnPixels, State.draw_reg, if_neg hx, if_neg hy, hrows]

theorem underSprite_draw_iff {s : State} {ps : List Nat} {x y n : Nibble} {p : Nat} (hx : x ≠ vf) (hy : y ≠ vf) :
    UnderSprite (s.draw ps) x y n p ↔ UnderSprite s x y n p := by
  rw [← mem_drawnPixels, drawnPixels_draw s ps n hx hy, mem_drawnPixels]

/-- A second draw finds a pixel on where the first one found it off. -/
theorem under_and_on_after_draw_iff {s : State} {x y n : Nibble} {p : Nat} (hscreen : ∀ p, UnderSprite s x y n p → p ≤ 2047)
    (hx : x ≠ vf) (hy : y ≠ vf) :
    UnderSprite (s.draw (s.drawnPixels x y n)) x y n p ∧ (s.draw (s.drawnPixels x y n)).fb.getLsbD p = true ↔
      UnderSprite s x y n p ∧ s.fb.getLsbD p = false := by
  rw [underSprite_draw_iff hx hy]
  refine and_congr_right fun hp => ?_
  rw [getLsbD_draw_fb_under hscreen hp, Bool.not_eq_true']

/-- Settles O18: the second draw toggles the same pixels, and finds on those that the first one found off. -/
theorem drawingTwiceRestoresTheFramebuffer : Obligations.DrawingTwiceRestoresTheFramebuffer := by
  intro x y n s t u hx hy hmem hscreen ht hu
  obtain rfl : s.draw (s.drawnPixels x y n) = t := by simpa [exec_drw_of_on_screen hscreen hmem] using ht
  have hscreen' : ∀ p, UnderSprite (s.draw (s.drawnPixels x y n)) x y n p → p ≤ 2047 :=
    fun p hp => hscreen p ((underSprite_draw_iff hx hy).mp hp)
  have hmem' : SpriteInMemory (s.draw (s.drawnPixels x y n)) n := hmem
  rw [exec_drw_of_on_screen hscreen' hmem'] at hu
  injection hu with hu
  subst hu
  have hcollides := exists_congr fun p => under_and_on_after_draw_iff hscreen hx hy (p := p)
  refine ⟨BitVec.eq_of_getLsbD_eq fun p _ => ?_, ?_, ?_⟩
  · rw [getLsbD_draw_fb hscreen', getLsbD_draw_fb hscreen, drawnPixels_draw _ _ _ hx hy, Bool.xor_assoc, Bool.xor_self, Bool.xor_false]
  · rw [draw_vf_eq_one_iff hscreen', hcollides]
  · rw [draw_vf_eq_zero_iff hscreen', hcollides]

/-! ### The faults of a draw (40_display.md R91; 60_exceptions.md R162, R167) -/

/-- Settles O16: the bound check comes first and names the first address outside. -/
theorem drawFromBeyondMemoryFaults : Obligations.DrawFromBeyondMemoryFaults := by
  intro x y n s hout
  have hn : n.toNat ≠ 0 := fun h => hout (.inl h)
  have hbound : 0xFFF < s.dataBase + n.toNat - 1 := Nat.lt_of_not_le fun h => hout (.inr h)
  have hfirst := firstOutside_eq_some hn hbound
  rcases execDrw_cases x y n s with ⟨a, ha, he⟩ | ⟨p, hnone, -⟩ | ⟨hnone, -⟩
  · obtain rfl : max s.dataBase 0x1000 = a := by simpa [hfirst] using ha
    exact faultsOutOfBounds_of_exec he
  · simp [hfirst] at hnone
  · simp [hfirst] at hnone

/-- Settles O17: the recorded pixel is the least one past the framebuffer, which is the one of the first such set bit. -/
theorem drawBeyondTheFramebufferFaults : Obligations.DrawBeyondTheFramebufferFaults := by
  intro x y n s r c hmem hon hpast hfirst
  have hlisted : spritePixel s x y r c ∈ s.drawnPixels x y n := mem_drawnPixels.mpr ⟨r, c, hon, rfl⟩
  rcases execDrw_cases x y n s with ⟨a, ha, -⟩ | ⟨p, -, hfind, hp, he⟩ | ⟨-, hall, -⟩
  · simp [firstOutside_of_spriteInMemory hmem] at ha
  · have hle : p ≤ spritePixel s x y r c := find?_le_of_rising (spritePixels_rising ..) hfind hlisted (decide_eq_true hpast)
    obtain ⟨r', c', hon', rfl⟩ := mem_drawnPixels.mp (List.mem_of_find?_eq_some hfind)
    have hnotBefore : ¬ (r' < r ∨ r' = r ∧ c' < c) := fun h => absurd (hfirst r' c' hon' h) (by omega)
    obtain ⟨-, hc, -⟩ := hon
    have heq : spritePixel s x y r' c' = spritePixel s x y r c := by
      unfold spritePixel at hle ⊢
      omega
    exact faultsOutOfBounds_of_exec (heq ▸ he)
  · have := hall _ hlisted
    omega

end Sys2Proof.Machine
end

section
/-! PROOFS. The statements of the family 41_flow.md: what RET and CALL do to the call stack, where the jumps lead, and that RET undoes
CALL. The case split on SP, in use or not and full or not, is made once, in the equations of RET and CALL. -/

namespace Sys2Proof.Machine

/-! ### The call stack (41_flow.md R100, R102; decision D1) -/

theorem exec_ret_of_used {s : State} (h : 0 < s.sp.val) :
    exec .ret s = .next { s with sp := ⟨s.sp.val - 1, by omega⟩, pc := s.stack[s.sp.val - 1] } := by
  obtain ⟨hempty, -⟩ | ⟨_, he⟩ := execRet_cases s
  · omega
  · exact he

theorem exec_ret_of_empty {s : State} (h : s.sp.val = 0) : exec .ret s = .next (s.faulted .ret .stack 0) := by
  obtain ⟨-, he⟩ | ⟨hused, -⟩ := execRet_cases s
  · exact he
  · omega

theorem exec_call_of_room {s : State} (nnn : Addr12) (h : s.sp.val < 16) :
    exec (.call nnn) s = .next
      { s with stack := s.stack.set s.sp.val s.pc, sp := ⟨s.sp.val + 1, by omega⟩, pc := addrOperand nnn } := by
  obtain ⟨hfull, -⟩ | ⟨_, he⟩ := execCall_cases nnn s
  · omega
  · exact he

theorem exec_call_of_full {s : State} (nnn : Addr12) (h : s.sp.val = 16) :
    exec (.call nnn) s = .next (s.faulted (.call nnn) .stack 16) := by
  obtain ⟨-, he⟩ | ⟨hroom, -⟩ := execCall_cases nnn s
  · exact he
  · omega

/-- Settles O19: an entry in use is popped, and with none in use the fault names index 0. -/
theorem retPopsTheCallStack : Obligations.RetPopsTheCallStack := by
  refine ⟨decode_encode .ret, fun s => ⟨fun hused => ?_, fun hempty => ?_⟩⟩
  · exact ⟨_, exec_ret_of_used hused, rfl, rfl, fun _ => rfl, fun _ => rfl, rfl⟩
  · exact faultsOutOfBounds_of_exec (exec_ret_of_empty hempty)

/-! ### Jump targets (41_flow.md R101, R103) -/

theorem addrOperand_toNat (nnn : Addr12) : (addrOperand nnn).toNat = nnn.toNat :=
  BitVec.toNat_setWidth_of_le (by decide)

/-- The sum of BNNN has no carry out of 16 bits, since it is at most 0x10FE. -/
theorem jpV0_target_toNat (nnn : Addr12) (b : Byte) : (addrOperand nnn + regOperand b).toNat = nnn.toNat + b.toNat := by
  have hb : (regOperand b).toNat = b.toNat := BitVec.toNat_setWidth_of_le (by decide)
  have := nnn.isLt
  have := b.isLt
  rw [BitVec.toNat_add, addrOperand_toNat, hb]
  omega

theorem onlyPc_setPc (s : State) (w : Word) : OnlyPc s (s.setPc w) := ⟨s.setPc_reg w, s.setPc_memRead w, rfl⟩

/-- Settles O20: both jumps only write PC, and neither target wraps. -/
theorem jumpsSetPc : Obligations.JumpsSetPc := by
  refine fun nnn s => ⟨decode_encode (.jp nnn), decode_encode (.jpV0 nnn), ?_, ?_⟩
  · exact ⟨s.setPc (addrOperand nnn), rfl, addrOperand_toNat nnn, onlyPc_setPc s _⟩
  · exact ⟨s.setPc (addrOperand nnn + regOperand (s.reg 0)), rfl, jpV0_target_toNat nnn _, onlyPc_setPc s _⟩

/-! ### CALL, and RET after it -/

/-- Settles O21: with an entry free PC is written into it, and with none free the fault names index 16. -/
theorem callPushesPcAndJumps : Obligations.CallPushesPcAndJumps := by
  refine fun nnn s => ⟨decode_encode (.call nnn), fun hroom => ?_, fun hfull => ?_⟩
  · exact ⟨_, exec_call_of_room nnn hroom, Vector.getElem_set_self _, rfl, addrOperand_toNat nnn,
      fun _ hk => Vector.getElem_set_ne hroom _ hk.symm, fun _ => rfl, fun _ => rfl, rfl⟩
  · exact faultsOutOfBounds_of_exec (exec_call_of_full nnn hfull)

/-- RET after CALL takes back SP and the PC pushed; the entry pushed stays in the stack. -/
theorem exec_ret_after_call {s t : State} {nnn : Addr12} (h : s.sp.val < 16) (ht : exec (.call nnn) s = .next t) :
    exec .ret t = .next { s with stack := s.stack.set s.sp.val s.pc } := by
  rw [exec_call_of_room nnn h] at ht
  injection ht with ht
  subst ht
  rw [exec_ret_of_used (Nat.succ_pos _)]
  have hpc : (s.stack.set s.sp.val s.pc)[s.sp.val] = s.pc := Vector.getElem_set_self _
  simp [hpc]

/-- Settles O22: CALL writes SP, PC and one stack entry, and RET restores the first two. -/
theorem callThenRetReturns : Obligations.CallThenRetReturns := by
  intro nnn s h
  have hcall := exec_call_of_room nnn h
  exact ⟨_, _, hcall, exec_ret_after_call h hcall, fun _ hk => Vector.getElem_set_ne h _ hk.symm, rfl⟩

end Sys2Proof.Machine
end

section
/-! PROOFS. The statements of the family 42_skip.md: the four skips differ in the comparison alone, so what a skip does to PC and its
frame are said once, for any condition. -/

namespace Sys2Proof.Machine

/-! ### A skip on a condition -/

theorem onlyPc_skipIf (s : State) (c : Bool) : OnlyPc s (s.skipIf c) :=
  ⟨s.skipIf_reg c, s.skipIf_memRead c, by cases c <;> rfl⟩

/-- An instruction that skips on `c`, with `c` read as a proposition each way: `P` where it skips and `Q` where it does not. -/
theorem exec_skips_of_eq_skipIf {i : Instr} {s : State} {c : Bool} {P Q : Prop} (he : exec i s = .next (s.skipIf c))
    (hskip : P → c = true) (hstay : Q → c = false) :
    ∃ t, exec i s = .next t ∧ (P → t.pc = s.pc + 2) ∧ (Q → t.pc = s.pc) ∧ OnlyPc s t := by
  refine ⟨s.skipIf c, he, fun hP => ?_, fun hQ => ?_, onlyPc_skipIf s c⟩
  · rw [State.skipIf_pc, if_pos (hskip hP)]
  · rw [State.skipIf_pc, hstay hQ, if_neg Bool.false_ne_true]

/-! ### The skips with an immediate (42_skip.md R110, R111) -/

/-- Settles O23: SE skips on the equality of the register and the byte, SNE on its negation. -/
theorem immediateSkipsCompareTheRegister : Obligations.ImmediateSkipsCompareTheRegister := by
  refine fun x nn s => ⟨decode_encode (.seImm x nn), decode_encode (.sneImm x nn), ?_, ?_⟩
  · exact exec_skips_of_eq_skipIf rfl beq_iff_eq.mpr beq_eq_false_iff_ne.mpr
  · exact exec_skips_of_eq_skipIf rfl bne_iff_ne.mpr bne_eq_false_iff_eq.mpr

/-! ### The skips with two registers (42_skip.md R112, R113; decision D2 for the low nibble) -/

/-- The arms of the tree for the ops 0x5 and 0x9 test the low nibble. -/
theorem decode_encodeXYN_of_n_ne_zero {p : Word} {n : Nibble} (x y : Nibble) (hop : fieldOp p = 0x5 ∨ fieldOp p = 0x9)
    (hp : fieldN p = 0) (hn : n ≠ 0) : decode (encodeXYN p x y n) = .error (.unknownOpcode (encodeXYN p x y n)) := by
  rcases hop with hop | hop
  · simpa [decode, encodeXYN, hop, hp] using hn
  · simpa [decode, encodeXYN, hop, hp] using hn

/-- Settles O24: SE skips on the equality of the two registers, SNE on its negation, and neither decodes with a low nibble set. -/
theorem registerSkipsCompareTwoRegisters : Obligations.RegisterSkipsCompareTwoRegisters := by
  refine fun x y s => ⟨decode_encode (.seReg x y), decode_encode (.sneReg x y), fun n hn => ?_, ?_, ?_⟩
  · exact ⟨decode_encodeXYN_of_n_ne_zero x y (.inl rfl) rfl hn, decode_encodeXYN_of_n_ne_zero x y (.inr rfl) rfl hn⟩
  · exact exec_skips_of_eq_skipIf rfl beq_iff_eq.mpr beq_eq_false_iff_ne.mpr
  · exact exec_skips_of_eq_skipIf rfl bne_iff_ne.mpr bne_eq_false_iff_eq.mpr

end Sys2Proof.Machine
end

section
/-! PROOFS. The statements of the family 43_alu.md. Every instruction of the family writes one register, or one register and then VF, so
what these two writes leave behind is said once; an instruction adds the value it computes. -/

namespace Sys2Proof.Machine

/-! ### One register written -/

theorem onlyRegisters_setReg (s : State) (x : Nibble) (b : Byte) : OnlyRegisters (· = x) s (s.setReg x b) :=
  ⟨fun _ hr => s.reg_setReg_other b hr, s.setReg_memRead x b, rfl⟩

/-- Settles O26: the byte is what the register reads back. -/
theorem loadImmediateStoresTheByte : Obligations.LoadImmediateStoresTheByte := fun x nn s =>
  ⟨decode_encode (.ldImm x nn), s.setReg x nn, rfl, s.reg_setReg_same x nn, onlyRegisters_setReg s x nn⟩

/-- Settles O27: addition of bytes is addition modulo 256. -/
theorem addImmediateWrapsWithoutAFlag : Obligations.AddImmediateWrapsWithoutAFlag := by
  refine fun x nn s => ⟨decode_encode (.addImm x nn), s.setReg x (s.reg x + nn), rfl, ?_, onlyRegisters_setReg s x _⟩
  rw [State.reg_setReg_same, BitVec.toNat_add]

/-- Settles O28: the operation on bytes acts on each bit. -/
theorem copyAndLogicWriteTheFirstRegister : Obligations.CopyAndLogicWriteTheFirstRegister := by
  refine fun x y s => ⟨decode_encode (.ldReg x y), decode_encode (.orReg x y), decode_encode (.andReg x y),
    decode_encode (.xorReg x y), ?_, ?_, ?_, ?_⟩
  · exact ⟨s.setReg x (s.reg y), rfl, s.reg_setReg_same x _, onlyRegisters_setReg s x _⟩
  · refine ⟨s.setReg x (s.reg x ||| s.reg y), rfl, fun k => ?_, onlyRegisters_setReg s x _⟩
    rw [State.reg_setReg_same, BitVec.getLsbD_or]
  · refine ⟨s.setReg x (s.reg x &&& s.reg y), rfl, fun k => ?_, onlyRegisters_setReg s x _⟩
    rw [State.reg_setReg_same, BitVec.getLsbD_and]
  · refine ⟨s.setReg x (s.reg x ^^^ s.reg y), rfl, fun k => ?_, onlyRegisters_setReg s x _⟩
    rw [State.reg_setReg_same, BitVec.getLsbD_xor]

/-- Settles O32: of the byte drawn only the bits of the mask are kept, and the draw is counted. -/
theorem randomByteIsMasked : Obligations.RandomByteIsMasked := by
  intro x nn s
  have hx := s.reg_setReg_same x (Config.rnd s.draws &&& nn)
  have hmask : Config.rnd s.draws &&& nn &&& ~~~nn = 0 := by simp [BitVec.and_assoc]
  exact ⟨decode_encode (.rnd x nn), _, rfl, hx, (congrArg (· &&& ~~~nn) hx).trans hmask,
    fun hnn => hx.trans (by simp [hnn]), rfl, onlyRegisters_setReg s x _⟩

/-! ### One register written, then VF (43_alu.md R132; decision D3) -/

section
variable (s : State) {x : Nibble} (b c : Byte)

@[simp] theorem State.reg_setRegFlag_vf : (s.setRegFlag x b c).reg vf = c := by
  rw [State.reg_setRegFlag, if_pos rfl]

theorem State.reg_setRegFlag_of_ne_vf (h : x ≠ vf) : (s.setRegFlag x b c).reg x = b := by
  rw [State.reg_setRegFlag, if_neg h, if_pos rfl]

theorem onlyRegisters_setRegFlag : OnlyRegisters (fun r => r = x ∨ r = vf) s (s.setRegFlag x b c) := by
  refine ⟨fun r hr => ?_, s.setRegFlag_memRead x b c, rfl⟩
  obtain ⟨hx, hvf⟩ := not_or.mp hr
  rw [State.reg_setRegFlag, if_neg hvf, if_neg hx]

end

/-- An instruction that writes a result and a flag, each with what its statement says of it: `n` is the result's value and `Q` the flag's
property. -/
theorem exec_sets_of_eq_setRegFlag {i : Instr} {s : State} {x : Nibble} {b c : Byte} {n : Nat} (Q : Byte → Prop)
    (he : exec i s = .next (s.setRegFlag x b c)) (hb : b.toNat = n) (hc : Q c) :
    ∃ t, exec i s = .next t ∧ (x ≠ vf → (t.reg x).toNat = n) ∧ Q (t.reg vf) ∧ OnlyRegisters (fun r => r = x ∨ r = vf) s t := by
  refine ⟨_, he, fun hx => ?_, ?_, onlyRegisters_setRegFlag s b c⟩
  · rw [State.reg_setRegFlag_of_ne_vf s b c hx, hb]
  · rwa [State.reg_setRegFlag_vf]

/-! ### The flags (43_alu.md R126 to R129) -/

theorem carryFlag_eq (a b : Byte) : carryFlag a b = if a.toNat + b.toNat > 0xFF then 1 else 0 := by
  simp only [carryFlag, flagOf, decide_eq_true_eq]

theorem greaterFlag_eq (a b : Byte) : greaterFlag a b = if b.toNat < a.toNat then 1 else 0 := by
  simp only [greaterFlag, flagOf, decide_eq_true_eq, gt_iff_lt]

theorem lowBitFlag_toNat (a : Byte) : (lowBitFlag a).toNat = a.toNat % 2 := by
  rw [lowBitFlag, BitVec.toNat_and]
  exact Nat.and_one_is_mod _

/-- What is left above the seven low bits is one bit. -/
theorem highBitFlag_toNat (a : Byte) : (highBitFlag a).toNat = a.toNat / 128 := by
  have := a.isLt
  calc (highBitFlag a).toNat = a.toNat / 128 % 2 := by
        rw [highBitFlag, BitVec.toNat_and, BitVec.toNat_ushiftRight, Nat.shiftRight_eq_div_pow]
        exact Nat.and_one_is_mod _
    _ = a.toNat / 128 := by omega

/-! ### Add, subtract, shift -/

/-- Subtraction of bytes, said as a difference of naturals that cannot be cut off at 0. -/
theorem sub_toNat (a b : Byte) : (a - b).toNat = (a.toNat + 256 - b.toNat) % 256 := by
  have := b.isLt
  rw [BitVec.toNat_sub]
  omega

/-- Settles O29: the sum is one of bytes, and the carry is of the operands as they were. -/
theorem addRegistersSetsTheCarry : Obligations.AddRegistersSetsTheCarry := fun x y _ =>
  ⟨decode_encode (.addReg x y), exec_sets_of_eq_setRegFlag (· = _) rfl (BitVec.toNat_add _ _) (carryFlag_eq _ _)⟩

/-- Settles O30: the difference is one of bytes, and the comparison is of the operands as they were. -/
theorem subtractSetsTheGreaterFlag : Obligations.SubtractSetsTheGreaterFlag := fun x y _ =>
  ⟨decode_encode (.subReg x y), exec_sets_of_eq_setRegFlag (· = _) rfl (sub_toNat _ _) (greaterFlag_eq _ _)⟩

/-- Settles O31: each shift moves the byte by one place, and VF takes the bit at the end it leaves by. -/
theorem shiftsMoveTheLostBitToVf : Obligations.ShiftsMoveTheLostBitToVf := by
  refine fun x y _ => ⟨decode_encode (.shr x y), decode_encode (.shl x y), ?_, ?_⟩
  · refine exec_sets_of_eq_setRegFlag (·.toNat = _) rfl ?_ (lowBitFlag_toNat _)
    rw [BitVec.toNat_ushiftRight, Nat.shiftRight_one]
  · refine exec_sets_of_eq_setRegFlag (·.toNat = _) rfl ?_ (highBitFlag_toNat _)
    rw [BitVec.toNat_shiftLeft, Nat.shiftLeft_eq]

end Sys2Proof.Machine
end

section
/-! PROOFS. The statements of the family 44_index_memory.md. What a write of I, a store at I and a load from I change is said once, and so
is the bound check past the top of memory; an instruction adds the bytes it moves. -/

namespace Sys2Proof.Machine

/-! ### The index register (44_index_memory.md R140 to R142) -/

theorem onlyIndex_setI (s : State) (w : Word) : OnlyIndex s (s.setI w) := ⟨s.setI_reg w, s.setI_memRead w, rfl⟩

theorem regOperand_toNat (b : Byte) : (regOperand b).toNat = b.toNat :=
  BitVec.toNat_setWidth_of_le (by decide)

/-- The product of FX29 is at most 255 times 5, so it does not wrap. -/
theorem glyphAddr_toNat (b : Byte) : (glyphAddr b).toNat = b.toNat * 5 := by
  have hb : b.toNat < 2 ^ 8 := b.isLt
  have hfive : (5 : Word).toNat = 5 := rfl
  rw [glyphAddr, BitVec.toNat_mul, regOperand_toNat, hfive]
  omega

/-- Settles O33: each of the three writes I alone; the address and the product fit in 16 bits, the sum is one of words. -/
theorem indexInstructionsWriteI : Obligations.IndexInstructionsWriteI := by
  refine fun nnn x s => ⟨decode_encode (.ldI nnn), decode_encode (.addI x), decode_encode (.ldF x), ?_, ?_, ?_⟩
  · exact ⟨s.setI (addrOperand nnn), rfl, addrOperand_toNat nnn, onlyIndex_setI s _⟩
  · refine ⟨s.setI (s.i + regOperand (s.reg x)), rfl, ?_, onlyIndex_setI s _⟩
    rw [State.setI_i, BitVec.toNat_add, regOperand_toNat]
  · exact ⟨s.setI (glyphAddr (s.reg x)), rfl, glyphAddr_toNat _, onlyIndex_setI s _⟩

/-! ### The bound check (44_index_memory.md R146; decisions D1, D7) -/

/-- Of the addresses from `base` to `base + n` the last lies past the top of memory. -/
theorem firstOutside_of_overrun {base n : Nat} (h : 0xFFF < base + n) : firstOutside base (n + 1) = some (max base 0x1000) :=
  firstOutside_eq_some n.succ_ne_zero h

theorem State.storeAtI_of_overrun {s : State} {bs : List Byte} {n : Nat} (i : Instr) (hlen : bs.length = n + 1)
    (h : 0xFFF < s.i.toNat + n) : s.storeAtI i bs = .next (s.faulted i .mem (max s.i.toNat 0x1000)) := by
  have hfirst : firstOutside s.dataBase bs.length = some (max s.i.toNat 0x1000) := by
    rw [hlen]; exact firstOutside_of_overrun h
  obtain ⟨a, ha, he⟩ | ⟨hnone, -⟩ := s.storeAtI_cases i bs
  · obtain rfl : max s.i.toNat 0x1000 = a := by simpa [hfirst] using ha
    exact he
  · simp [hfirst] at hnone

/-! ### Stores at I (44_index_memory.md R143, R144) -/

theorem onlyMemory_memWriteList (s : State) (a : Nat) {bs : List Byte} {n : Nat} (hlen : bs.length = n) :
    OnlyMemory a n s (s.memWriteList a bs) :=
  ⟨fun _ hout => s.memRead_memWriteList_outside (hlen ▸ hout), s.memWriteList_reg a bs, rfl⟩

/-- Settles O34: the digits are read back in their order; that of the hundreds needs no remainder, as a byte is below 1000. -/
theorem decimalDigitsAreStored : Obligations.DecimalDigitsAreStored := by
  refine fun x s => ⟨decode_encode (.ldB x), fun hroom => ?_, fun hpast => ?_⟩
  · have hundreds : (s.reg x).toNat / 10 ^ (2 - 0) % 10 = (s.reg x).toNat / 100 := by
      have := (s.reg x).isLt
      omega
    have hdigit {k : Nat} (hk : k < 3) := State.memRead_digitsStored (s := s) (b := s.reg x) hk (Eq.refl (s.i.toNat + k))
    exact ⟨_, exec_ldB_of_room hroom, (hdigit (k := 0) (by decide)).trans hundreds, hdigit (k := 1) (by decide),
      by simpa using hdigit (k := 2) (by decide), onlyMemory_memWriteList s _ rfl⟩
  · exact faultsOutOfBounds_of_exec (State.storeAtI_of_overrun _ rfl hpast)

/-- Settles O35: a store of V0 to VX writes `X + 1` bytes, the one at `I + r` from register `r`. -/
theorem registersAreStoredFromI : Obligations.RegistersAreStoredFromI := by
  refine fun x s => ⟨decode_encode (.storeRegs x), fun hroom => ?_, fun hpast => ?_⟩
  · exact ⟨_, exec_storeRegs_of_room hroom, fun r hr => State.memRead_regsStored hr rfl,
      onlyMemory_memWriteList s _ (s.regsUpTo_length x)⟩
  · exact faultsOutOfBounds_of_exec (State.storeAtI_of_overrun _ (s.regsUpTo_length x) hpast)

/-! ### Loads from I (44_index_memory.md R145) -/

section
variable {x : Nibble} {s : State}

theorem exec_loadRegs_of_room (h : s.i.toNat + x.toNat ≤ 0xFFF) :
    exec (.loadRegs x) s = .next (s.setRegsFrom 0 (s.memReadList s.i.toNat (x.toNat + 1))) := by
  obtain ⟨a, ha, -⟩ | ⟨-, he⟩ := execLoadRegs_cases x s
  · have hnone : firstOutside s.dataBase (regCount x) = none := firstOutside_eq_none.mpr (.inr h)
    simp [hnone] at ha
  · exact he

theorem exec_loadRegs_of_overrun (h : 0xFFF < s.i.toNat + x.toNat) :
    exec (.loadRegs x) s = .next (s.faulted (.loadRegs x) .mem (max s.i.toNat 0x1000)) := by
  have hfirst : firstOutside s.dataBase (regCount x) = some (max s.i.toNat 0x1000) := firstOutside_of_overrun h
  obtain ⟨a, ha, he⟩ | ⟨hnone, -⟩ := execLoadRegs_cases x s
  · obtain rfl : max s.i.toNat 0x1000 = a := by simpa [hfirst] using ha
    exact he
  · simp [hfirst] at hnone

/-- After a load the registers up to X hold the bytes from `a` up, and the others what they held. -/
theorem State.reg_regsLoaded (s : State) (x : Nibble) (a : Nat) (r : Nibble) :
    (s.setRegsFrom 0 (s.memReadList a (x.toNat + 1))).reg r = if r ≤ x then s.memRead (a + r.toNat) else s.reg r := by
  have hx : 0 + (s.memReadList a (x.toNat + 1)).length ≤ 16 := by
    have := x.isLt
    simp; omega
  rw [State.reg_setRegsFrom _ _ _ hx, if_pos r.toNat.zero_le, Nat.sub_zero]
  by_cases hr : r ≤ x
  · have hlen : r.toNat < (s.memReadList a (x.toNat + 1)).length := by
      have : r.toNat ≤ x.toNat := hr
      simp; omega
    rw [if_pos hr, List.getD_eq_getElem _ _ hlen, State.memReadList_getElem]
  · have hlen : (s.memReadList a (x.toNat + 1)).length ≤ r.toNat := by
      have : ¬ r.toNat ≤ x.toNat := hr
      simp; omega
    rw [if_neg hr, List.getD_eq_default _ _ hlen]

theorem State.reg_regsLoaded_of_le {a : Nat} {r : Nibble} (h : r ≤ x) :
    (s.setRegsFrom 0 (s.memReadList a (x.toNat + 1))).reg r = s.memRead (a + r.toNat) := by
  rw [State.reg_regsLoaded, if_pos h]

theorem State.reg_regsLoaded_of_not_le {a : Nat} {r : Nibble} (h : ¬ r ≤ x) :
    (s.setRegsFrom 0 (s.memReadList a (x.toNat + 1))).reg r = s.reg r := by
  rw [State.reg_regsLoaded, if_neg h]

theorem onlyRegisters_regsLoaded (a : Nat) : OnlyRegisters (· ≤ x) s (s.setRegsFrom 0 (s.memReadList a (x.toNat + 1))) := by
  refine ⟨fun r hr => State.reg_regsLoaded_of_not_le hr, fun b => ?_, State.setRegsFrom_eq _ s 0⟩
  rw [State.setRegsFrom_eq]; rfl

end

/-- Settles O36: register `r` takes the byte at `I + r`, and the registers above X are none of those written. -/
theorem registersAreLoadedFromI : Obligations.RegistersAreLoadedFromI := by
  refine fun x s => ⟨decode_encode (.loadRegs x), fun hroom => ?_, fun hpast => ?_⟩
  · exact ⟨_, exec_loadRegs_of_room hroom, fun r hr => State.reg_regsLoaded_of_le hr, onlyRegisters_regsLoaded _⟩
  · exact faultsOutOfBounds_of_exec (exec_loadRegs_of_overrun hpast)

/-! ### A load after a store (decision D11) -/

/-- Settles O37: the store leaves I, so the load reads the bytes the store wrote. -/
theorem loadRestoresTheStoredRegisters : Obligations.LoadRestoresTheStoredRegisters := by
  intro x s t u w hroom hstore hmem hi hload
  rw [exec_storeRegs_of_room hroom] at hstore
  injection hstore with hstore
  subst hstore
  replace hi : u.i = s.i := hi
  rw [exec_loadRegs_of_room (hi ▸ hroom), hi] at hload
  injection hload with hload
  subst hload
  refine ⟨fun r hr => ?_, fun r hr => State.reg_regsLoaded_of_not_le hr⟩
  calc (u.setRegsFrom 0 (u.memReadList s.i.toNat (x.toNat + 1))).reg r
      = u.memRead (s.i.toNat + r.toNat) := State.reg_regsLoaded_of_le hr
    _ = (s.memWriteList s.i.toNat (s.regsUpTo x)).memRead (s.i.toNat + r.toNat) := by rw [State.memRead, hmem]; rfl
    _ = s.reg r := State.memRead_regsStored hr rfl

end Sys2Proof.Machine
end

section
/-! PROOFS. The statements of the family 45_keypad_timers.md. What a skip on a key does, the level it skips on left open, is said once for
SKP and SKNP. -/

namespace Sys2Proof.Machine

/-! ### The skips on a key (45_keypad_timers.md R150, R151; decision D8) -/

theorem State.key_of_lt (s : State) {k : Nat} (h : k < 16) : s.key k = s.keys[k] := dif_pos h

section
variable {i : Instr} {s : State} {x : Nibble} {down : Bool} (he : exec i s = s.skipOnKey i x down)
include he

/-- A key's index within 0xF: the skip is taken at the level `down`. -/
theorem exec_skips_of_eq_skipOnKey (h : (s.reg x).toNat < 16) :
    ∃ t, exec i s = .next t ∧ t.pc = (if s.keys[(s.reg x).toNat] = down then s.pc + 2 else s.pc) ∧ OnlyPc s t := by
  obtain ⟨habove, -⟩ | ⟨-, hskip⟩ := s.skipOnKey_cases i x down
  · exact absurd h (Nat.not_lt.mpr habove)
  · refine ⟨_, he.trans hskip, ?_, onlyPc_skipIf s _⟩
    simp only [State.skipIf_pc, s.key_of_lt h, beq_iff_eq]

theorem exec_faults_of_eq_skipOnKey (h : 0xF < (s.reg x).toNat) : FaultsOutOfBounds i s .key (s.reg x).toNat := by
  obtain ⟨-, hfault⟩ | ⟨hbelow, -⟩ := s.skipOnKey_cases i x down
  · exact faultsOutOfBounds_of_exec (he.trans hfault)
  · exact absurd hbelow (Nat.not_lt.mpr h)

end

/-- Settles O25: SKP skips on the level down and SKNP on the level up; both check the index first. -/
theorem keySkipsReadTheKeypad : Obligations.KeySkipsReadTheKeypad := by
  refine fun x s => ⟨decode_encode (.skp x), decode_encode (.sknp x), fun h => ⟨?_, ?_⟩, fun h => ⟨?_, ?_⟩⟩
  · exact exec_skips_of_eq_skipOnKey rfl h
  · have hup := exec_skips_of_eq_skipOnKey (i := .sknp x) (down := false) rfl h
    simpa only [← Bool.not_eq_true, ite_not] using hup
  · exact exec_faults_of_eq_skipOnKey rfl h
  · exact exec_faults_of_eq_skipOnKey rfl h

/-! ### The timers (45_keypad_timers.md R152, R154, R155) -/

/-- Settles O39: each of the three writes one piece of state, and FX18 leaves TONE to the tick. -/
theorem timerInstructionsCopy : Obligations.TimerInstructionsCopy := by
  refine fun x s => ⟨decode_encode (.ldVxDt x), decode_encode (.ldDtVx x), decode_encode (.ldStVx x), ?_, ?_, ?_⟩
  · exact ⟨s.setReg x s.dt, rfl, s.reg_setReg_same x s.dt, onlyRegisters_setReg s x s.dt⟩
  · exact ⟨{ s with dt := s.reg x }, rfl, rfl, fun _ => rfl, fun _ => rfl, rfl⟩
  · exact ⟨{ s with st := s.reg x }, rfl, rfl, fun _ => rfl, fun _ => rfl, rfl⟩

/-! ### The key wait (45_keypad_timers.md R153; 60_exceptions.md R172; 10_state.md R34) -/

theorem State.cycleEnabled_of_awaitingKey {s : State} (h : s.gate = .awaitingKey) : s.cycleEnabled = false := by
  simp [State.cycleEnabled, h]

/-- A cycle that comes up where the CPU does not run is dropped (assumption 9). -/
theorem step_cycle_of_not_cycleEnabled {s : State} (he : s.nextEvent = .cycle) (hc : s.cycleEnabled = false) :
    step s = .next s.takeEvent := by
  simp [step, runEvent, he, hc]

/-- Settles O40: FX0A writes WAITX and the gate alone, and a CPU cycle is not enabled until the gate opens. -/
theorem keyWaitOpensTheGate : Obligations.KeyWaitOpensTheGate := by
  refine ⟨fun x s => ⟨decode_encode (.ldVxK x), ?_⟩, fun s hgate he => ?_⟩
  · exact ⟨{ s with waitx := x, gate := .awaitingKey }, rfl, rfl, rfl, fun _ => rfl, fun _ => rfl, rfl⟩
  · exact step_cycle_of_not_cycleEnabled he (State.cycleEnabled_of_awaitingKey hgate)

end Sys2Proof.Machine
end

section
/-! PROOFS. The statements of the family 60_exceptions.md. First the cycle that faults: where it faulted and what its record names. Then the
events of the other agents: at a yield point each has its effect, inside a batch the cycle runs in its place. -/

namespace Sys2Proof.Machine

/-! ### Illegal words (60_exceptions.md R161) -/

theorem legalWord_iff_exists_decode {w : Word} : legalWord w = true ↔ ∃ i, decode w = .ok i := by
  obtain ⟨-, haccepts, -⟩ := decodesExactlyTheWordsOfTheOpcodeMap w
  rw [haccepts]
  simp [legalWord, OpcodeRow.fits]

theorem legalWord_eq_false_of_decode {w : Word} {e : DecodeError} (h : decode w = .error e) : legalWord w = false := by
  rw [← Bool.not_eq_true, legalWord_iff_exists_decode]
  rintro ⟨i, hi⟩
  simp [h] at hi

theorem cpuCycle_of_decode_error {s : State} {e : DecodeError} (hpc : s.pc.toNat ≤ 0xFFE) (hd : decode s.fetchWord = .error e) :
    cpuCycle s = .next (s.fetched.takeFault (unknownOpcodeRecord s.fetchWord s.pc)) := by
  rw [cpuCycle, if_pos (s.canFetch_iff.mpr hpc), hd]

/-- Settles O8: no row fits, so the tree rejects the word, and the cycle enters the fault with PC advanced. -/
theorem unknownOpcodeHalts : Obligations.UnknownOpcodeHalts := by
  intro s w he hr hg hpc hf hw hno
  obtain ⟨-, -, hrejects⟩ := decodesExactlyTheWordsOfTheOpcodeMap w
  have hfetch : s.takeEvent.fetchWord = w := by simp [State.fetchWord, wordOfBytes, hw]
  have hd : decode s.takeEvent.fetchWord = .error (.unknownOpcode w) := by rw [hfetch, hrejects hno]
  have hf' : s.takeEvent.fetched.fault = none := by simpa using hf
  refine ⟨unknownOpcodeRecord w s.pc, rfl, rfl, rfl, ?_⟩
  rw [step_of_cycle he hr hg, cpuCycle_of_decode_error (by simpa using hpc) hd, State.takeFault_of_faultFree hf', hfetch]
  simp [State.fetched, State.clearDirty, State.advance, State.setPc]

/-! ### The cycle that faults (60_exceptions.md R165 to R167) -/

/-- Fault entry as a whole record update. -/
theorem State.takeFault_eq (s : State) (r : FaultRecord) :
    s.takeFault r = { s with fault := if s.fault = none then some r else s.fault, runCpu := false } := by
  simp [State.takeFault]

/-- In a cycle the record of an instruction's fault names the fetched word and the address it was fetched from (assumption 14). -/
theorem State.fetched_faulted {s : State} {i : Instr} (hd : decode s.fetchWord = .ok i) (space : Space) (k : Nat) :
    s.fetched.faulted i space k = s.fetched.takeFault (outOfBoundsRecord (some s.fetchWord) s.pc space k) := by
  simp [State.faulted, State.instrAddr, encode_of_decode hd]

/-- A cycle that halts the CPU ended at its fetch, at its decoding, or in its instruction, with the record of that fault. -/
theorem cpuCycle_fault_cases {s t : State} (hr : s.runCpu = true) (h : cpuCycle s = .next t) (ht : t.runCpu = false) :
    (0xFFE < s.pc.toNat ∧ t = s.clearDirty.takeFault (outOfBoundsRecord none s.pc .fetch s.pc.toNat)) ∨
    (s.pc.toNat ≤ 0xFFE ∧ legalWord s.fetchWord = false ∧ t = s.fetched.takeFault (unknownOpcodeRecord s.fetchWord s.pc)) ∨
    (s.pc.toNat ≤ 0xFFE ∧ ∃ space k, OutsideSpace space k ∧
      t = s.fetched.takeFault (outOfBoundsRecord (some s.fetchWord) s.pc space k)) := by
  rcases cpuCycle_cases h with ⟨hf, rfl⟩ | ⟨hf, ⟨e, hd⟩, rfl⟩ | ⟨hf, i, u, hd, he, rfl⟩
  · have hout : ¬ s.pc.toNat ≤ 0xFFE := by simp [← s.canFetch_iff, hf]
    exact .inl ⟨Nat.lt_of_not_le hout, rfl⟩
  · exact .inr (.inl ⟨s.canFetch_iff.mp hf, legalWord_eq_false_of_decode hd, rfl⟩)
  · obtain ⟨space, k, hk, rfl⟩ | ho := exec_next_cases he
    · exact .inr (.inr ⟨s.canFetch_iff.mp hf, space, k, hk, State.fetched_faulted hd space k⟩)
    · have hu : u.runCpu = true := ho.outsideKept.runCpu.trans hr
      simp [hu] at ht

/-- Settles O9: the fault entry follows the clearing of `dirty` or the whole fetch, and no instruction writes before it. -/
theorem faultingCyclesArePrecise : Obligations.FaultingCyclesArePrecise := by
  intro s t hr h ht
  rcases cpuCycle_fault_cases hr h ht with ⟨hpc, rfl⟩ | ⟨hpc, -, rfl⟩ | ⟨hpc, space, k, -, rfl⟩
  · refine ⟨outOfBoundsRecord none s.pc .fetch s.pc.toNat, rfl, ?_⟩
    rw [State.takeFault_eq, if_neg (Nat.not_le.mpr hpc)]; rfl
  · refine ⟨unknownOpcodeRecord s.fetchWord s.pc, rfl, ?_⟩
    rw [State.takeFault_eq, if_pos hpc]; rfl
  · refine ⟨outOfBoundsRecord (some s.fetchWord) s.pc space k, rfl, ?_⟩
    rw [State.takeFault_eq, if_pos hpc]; rfl

/-- With no fault on record yet, the record of a fault is the one its entry is given. -/
theorem State.takeFault_fault_of_faultFree {s : State} (h : s.fault = none) (r : FaultRecord) : (s.takeFault r).fault = some r := by
  rw [State.takeFault_of_faultFree h]

/-- Settles O10: the three places where a cycle faults each write the record of their own kind; inside an instruction the index lies
outside one of the four spaces an instruction reaches. -/
theorem faultRecordsNameTheirCause : Obligations.FaultRecordsNameTheirCause := by
  intro s t hr hf h ht
  rcases cpuCycle_fault_cases hr h ht with ⟨hpc, rfl⟩ | ⟨hpc, hillegal, rfl⟩ | ⟨hpc, space, k, hk, rfl⟩
  · refine ⟨_, State.takeFault_fault_of_faultFree hf _, iff_of_true rfl hpc, nofun, ?_⟩
    exact .inr ⟨rfl, rfl, _, .inl ⟨rfl, rfl, hpc⟩⟩
  · refine ⟨_, State.takeFault_fault_of_faultFree hf _, iff_of_false nofun (Nat.not_lt.mpr hpc), ?_, ?_⟩
    · exact fun _ hw => (Option.some.inj hw).symm
    · exact .inl ⟨rfl, rfl, rfl, hillegal⟩
  · refine ⟨_, State.takeFault_fault_of_faultFree hf _, iff_of_false nofun (Nat.not_lt.mpr hpc), ?_, .inr ⟨rfl, rfl, k, ?_⟩⟩
    · exact fun _ hw => (Option.some.inj hw).symm
    · cases space with
      | fetch | load => exact hk.elim
      | mem => exact .inr (.inl ⟨rfl, hk⟩)
      | stack => exact .inr (.inr (.inl ⟨rfl, hk⟩))
      | fb => exact .inr (.inr (.inr (.inl ⟨rfl, hk⟩)))
      | key => exact .inr (.inr (.inr (.inr ⟨rfl, hk⟩)))

/-! ### Events that land at yield points (60_exceptions.md R170, R174) -/

section
variable {s : State} {effect : State → State} {k : Nat}

theorem State.atBoundary_of_atYield (h : s.atYield = true) : s.atBoundary effect = .next (effect s.takeEvent) := if_pos h

theorem State.atBoundary_of_not_atYield (h : s.atYield = false) : s.atBoundary effect = cpuCycle s := by
  simp [State.atBoundary, h]

theorem State.atBoundary_total (s : State) (effect : State → State) : ∃ t, s.atBoundary effect = .next t := by
  cases hy : s.atYield
  · rw [State.atBoundary_of_not_atYield hy]; exact cpuCycle_total s
  · exact ⟨_, State.atBoundary_of_atYield hy⟩

theorem step_of_tick (he : s.nextEvent = .tick) (hr : s.runTmr = true) : step s = s.atBoundary State.tick := by
  simp [step, runEvent, he, hr]

theorem step_of_stop (he : s.nextEvent = .stop) (hl : s.life ≠ .stopped) : step s = s.atBoundary State.stop := by
  simp [step, runEvent, he, hl]

theorem step_of_keyDown (he : s.nextEvent = .keyDown k) (hl : s.life ≠ .stopped) : step s = s.atBoundary (·.keyDown k) := by
  simp [step, runEvent, he, hl]

theorem step_of_keyUp (he : s.nextEvent = .keyUp k) (hl : s.life ≠ .stopped) : step s = s.atBoundary (·.keyUp k) := by
  simp [step, runEvent, he, hl]

/-- A key event in Stopped is ignored (60_exceptions.md R178). -/
theorem step_of_key_stopped (he : s.nextEvent = .keyDown k ∨ s.nextEvent = .keyUp k) (hl : s.life = .stopped) :
    step s = .next s.takeEvent := by
  obtain he | he := he <;> simp [step, runEvent, he, hl]

end

/-! ### The timer tick (60_exceptions.md R175) -/

theorem toNat_decrement (b : Byte) : (if 0 < b.toNat then b - 1 else b).toNat = b.toNat - 1 := by
  have := b.isLt
  split
  · rw [BitVec.toNat_sub]; simp; omega
  · omega

/-- Settles O41: each timer is decremented only from above 0. -/
theorem tickRunsTheTimersDown : Obligations.TickRunsTheTimersDown := by
  intro s he hr hy
  refine ⟨s.takeEvent.tick, by rw [step_of_tick he hr, State.atBoundary_of_atYield hy], ?_, ?_, ?_, rfl⟩
  · simp
  · rw [State.tick_st, toNat_decrement, State.takeEvent_st]
  · rw [State.tick_dt, toNat_decrement, State.takeEvent_dt]

/-! ### Key events (60_exceptions.md R163, R177 to R179) -/

section
variable {s : State} {k : Nat}

theorem State.setKey_of_le (hk : k ≤ 15) (down : Bool) : s.setKey k down = { s with keys := s.keys.set k down } :=
  dif_pos (Nat.lt_succ_of_le hk)

theorem State.getElem_setKey_keys (hk : k ≤ 15) (down : Bool) (j : Fin 16) :
    (s.setKey k down).keys[j.val] = if j.val = k then down else s.keys[j.val] := by
  simp [State.setKey_of_le hk, Vector.getElem_set, eq_comm]

theorem legalKey_iff : legalKey k = true ↔ k ≤ 15 := decide_eq_true_iff.trans Nat.lt_succ_iff

theorem State.keyDown_of_awaitingKey (hk : k ≤ 15) (hg : s.gate = .awaitingKey) : s.keyDown k = (s.setKey k true).endWait k := by
  simp [State.keyDown, legalKey_iff.mpr hk, hg]

theorem State.keyDown_of_running (hk : k ≤ 15) (hg : s.gate = .running) : s.keyDown k = s.setKey k true := by
  simp [State.keyDown, legalKey_iff.mpr hk, hg]

theorem State.keyUp_of_le (hk : k ≤ 15) : s.keyUp k = s.setKey k false := if_pos (legalKey_iff.mpr hk)

theorem State.keyDown_of_invalid (hk : 15 < k) : s.keyDown k = s := if_neg (by rw [legalKey_iff]; omega)

theorem State.keyUp_of_invalid (hk : 15 < k) : s.keyUp k = s := if_neg (by rw [legalKey_iff]; omega)

end

/-- Settles O42: the key is set in either state of the gate, and the open gate leaves it at that. -/
theorem keyDownSetsTheKeyAndEndsAWait : Obligations.KeyDownSetsTheKeyAndEndsAWait := by
  intro s k he hl hy hk
  have hstep : step s = .next (s.takeEvent.keyDown k) := by rw [step_of_keyDown he hl, State.atBoundary_of_atYield hy]
  have hkeys (j : Fin 16) : (s.takeEvent.setKey k true).keys[j.val] = if j.val = k then true else s.keys[j.val] := by
    simp [State.getElem_setKey_keys hk]
  cases hg : s.gate with
  | running =>
    rw [State.keyDown_of_running hk (by simpa using hg)] at hstep
    refine ⟨_, hstep, hkeys, by simp, fun _ => ?_⟩
    rw [State.setKey_of_le hk]
  | awaitingKey =>
    rw [State.keyDown_of_awaitingKey hk (by simpa using hg)] at hstep
    refine ⟨_, hstep, hkeys, fun _ => ⟨?_, rfl, fun r hr => ?_, ?_⟩, by simp⟩
    · simp [State.endWait_reg]; omega
    · simp [State.endWait_reg, hr]
    · rw [State.setKey_of_le hk]; rfl

/-- Settles O43: a legal key_up writes its key alone, the gate not among it. -/
theorem keyUpClearsTheKeyOnly : Obligations.KeyUpClearsTheKeyOnly := by
  intro s k he hl hy
  have hstep : step s = .next (s.takeEvent.keyUp k) := by rw [step_of_keyUp he hl, State.atBoundary_of_atYield hy]
  refine ⟨fun hk => ?_, fun hk => ?_⟩
  · rw [hstep, State.keyUp_of_invalid hk]
  · rw [State.keyUp_of_le hk] at hstep
    refine ⟨_, hstep, fun j => ?_, ?_, ?_⟩
    · simp [State.getElem_setKey_keys hk]
    · simp
    · rw [State.setKey_of_le hk]

/-- Settles O44: in Stopped the event is ignored, and elsewhere its index is turned away before any write. -/
theorem invalidKeyIndexIsRejected : Obligations.InvalidKeyIndexIsRejected := by
  intro s k he hy hk
  by_cases hl : s.life = .stopped
  · exact step_of_key_stopped he hl
  obtain he | he := he
  · rw [step_of_keyDown he hl, State.atBoundary_of_atYield hy, State.keyDown_of_invalid hk]
  · rw [step_of_keyUp he hl, State.atBoundary_of_atYield hy, State.keyUp_of_invalid hk]

/-! ### Inside a batch (60_exceptions.md R173, R174) -/

theorem State.atYield_eq_false {s : State} (hb : s.bc ≠ 0) (hg : s.gate = .running) (hr : s.runCpu = true) : s.atYield = false := by
  simp [State.atYield, hb, hg, hr]

/-- A cycle does not touch the events to come. -/
theorem cpuCycle_keeps_schedule {s t : State} (hr : s.runCpu = true) (h : cpuCycle s = .next t) :
    t.agenda = s.agenda ∧ t.eventCount = s.eventCount := by
  rcases cpuCycle_running_cases hr h with ⟨-, r, rfl⟩ | ⟨-, r, rfl⟩ | ⟨-, i, u, -, ho, -, rfl⟩
  · exact ⟨rfl, rfl⟩
  · exact ⟨rfl, rfl⟩
  · exact ⟨ho.outsideKept.agenda, ho.outsideKept.eventCount⟩

/-- Settles O45: no yield point holds inside a batch, so each of the four events leaves the step to the batch's cycle. -/
theorem insideABatchOnlyCyclesRun : Obligations.InsideABatchOnlyCyclesRun := by
  intro s k hb hg hr hl htmr he
  have hy : s.atYield = false := State.atYield_eq_false hb hg hr
  have hl' : s.life ≠ .stopped := by simp [hl]
  have hstep : step s = cpuCycle s := by
    rcases he with he | he | he | he
    · rw [step_of_tick he htmr, State.atBoundary_of_not_atYield hy]
    · rw [step_of_stop he hl', State.atBoundary_of_not_atYield hy]
    · rw [step_of_keyDown he hl', State.atBoundary_of_not_atYield hy]
    · rw [step_of_keyUp he hl', State.atBoundary_of_not_atYield hy]
  exact ⟨hstep, fun t ht => cpuCycle_keeps_schedule hr (hstep.symm.trans ht)⟩

/-! ### After a fault (60_exceptions.md R165, R168) -/

/-- Without a key wait a key_down writes no register and leaves the gate. -/
theorem State.keyDown_running_cases {s : State} (hg : s.gate = .running) (k : Nat) : s.keyDown k = s ∨ s.keyDown k = s.setKey k true := by
  by_cases hk : k ≤ 15
  · exact .inr (State.keyDown_of_running hk hg)
  · exact .inl (State.keyDown_of_invalid (Nat.lt_of_not_le hk))

/-- Settles O49: the record rules out RUN_CPU and Idle, so no cycle, load or start happens; and with RUN_CPU 0 a key wait is left only in
Stopped, where key events are ignored. -/
theorem haltedCoreExecutesNothing : Obligations.HaltedCoreExecutesNothing := by
  intro s t r hs hf hne h
  obtain ⟨-, -, hhalt, hidle, hwait⟩ := hs
  have hr : s.runCpu = false := hhalt (by simp [hf])
  have hlife : s.life ≠ .idle := fun hl => by simp [(hidle hl).2] at hf
  rcases step_cases h with ⟨hc, -⟩ | rfl | ⟨hreset, -⟩ | ⟨hl, -⟩ | ⟨hl, -⟩ | ⟨-, -, rfl⟩ | ⟨-, -, rfl⟩ | ⟨hl, -, k, -, rfl⟩ |
    ⟨-, k, -, rfl⟩
  · simp [State.cycleEnabled, hr] at hc
  · simp [hf, hr]
  · exact absurd hreset hne
  · exact absurd hl hlife
  · exact absurd hl hlife
  · simp [hf]
  · simp [hf, hr]
  · have hg : s.takeEvent.gate = .running := by
      cases hg : s.gate with
      | running => simpa using hg
      | awaitingKey => exact absurd (hwait hg) (by simp [hr, hl])
    obtain hk | hk := State.keyDown_running_cases hg k <;> simp [hk, hf, hr]
  · obtain hk | hk := s.takeEvent.keyUp_cases k <;> simp [hk, hf, hr]

/-! ### No event stops the machine (60_exceptions.md R165, R170; 70_reset_and_hazards.md R195) -/

theorem step_of_start {s : State} (he : s.nextEvent = .start) (hl : s.life = .idle) : step s = .next s.takeEvent.start := by
  simp [step, runEvent, he, hl]

theorem step_tick_of_not_runTmr {s : State} (he : s.nextEvent = .tick) (hr : s.runTmr = false) : step s = .next s.takeEvent := by
  simp [step, runEvent, he, hr]

/-- Settles O60: event by event, a cycle always ends in a next state and every other effect is a total function; what is left are the
refusals of the host's calls. -/
theorem onlyLifecycleMisuseIsRefused : Obligations.OnlyLifecycleMisuseIsRefused := by
  intro s
  cases he : s.nextEvent with
  | reset => exact .inl ⟨s.takeEvent.reconstruct, by rw [step, he]; rfl⟩
  | load bytes =>
    by_cases hl : s.life = .idle
    · exact .inl ⟨_, step_of_load he hl⟩
    · exact .inr (.inl ⟨hl, .inr ⟨bytes, rfl⟩⟩)
  | start =>
    by_cases hl : s.life = .idle
    · exact .inl ⟨_, step_of_start he hl⟩
    · exact .inr (.inl ⟨hl, .inl rfl⟩)
  | stop =>
    by_cases hl : s.life = .stopped
    · exact .inr (.inr ⟨hl, rfl⟩)
    · exact .inl (step_of_stop he hl ▸ s.atBoundary_total _)
  | cycle =>
    cases hc : s.cycleEnabled
    · exact .inl ⟨_, step_cycle_of_not_cycleEnabled he hc⟩
    · obtain ⟨hr, hg⟩ : s.runCpu = true ∧ s.gate = .running := by simpa [State.cycleEnabled] using hc
      exact .inl (step_of_cycle he hr hg ▸ cpuCycle_total _)
  | tick =>
    cases hr : s.runTmr
    · exact .inl ⟨_, step_tick_of_not_runTmr he hr⟩
    · exact .inl (step_of_tick he hr ▸ s.atBoundary_total _)
  | keyDown k =>
    by_cases hl : s.life = .stopped
    · exact .inl ⟨_, step_of_key_stopped (.inl he) hl⟩
    · exact .inl (step_of_keyDown he hl ▸ s.atBoundary_total _)
  | keyUp k =>
    by_cases hl : s.life = .stopped
    · exact .inl ⟨_, step_of_key_stopped (.inr he) hl⟩
    · exact .inl (step_of_keyUp he hl ▸ s.atBoundary_total _)

end Sys2Proof.Machine
end

section
/-! PROOFS. The statements of the family 70_reset_and_hazards.md: what reset, start and stop give and where the host's calls are refused,
why a stopped machine is frozen, and what a jump to itself leaves as it is. -/

namespace Sys2Proof.Machine

/-! ### The lifecycle (70_reset_and_hazards.md R190, R193 to R195; decision D17) -/

section
variable {s : State}

theorem step_of_reset (he : s.nextEvent = .reset) : step s = .next s.takeEvent.reconstruct := by
  rw [step, he]; rfl

theorem step_of_start_outside_idle (he : s.nextEvent = .start) (hl : s.life ≠ .idle) : step s = .refused .startOutsideIdle := by
  simp [step, runEvent, he, hl]

theorem step_of_load_outside_idle {bytes : List Byte} (he : s.nextEvent = .load bytes) (hl : s.life ≠ .idle) :
    step s = .refused .loadOutsideIdle := by
  simp [step, runEvent, he, hl]

theorem step_of_stop_after_stop (he : s.nextEvent = .stop) (hl : s.life = .stopped) : step s = .refused .stopAfterStop := by
  simp [step, runEvent, he, hl]

end

/-- Settles O50: the inputs still to come go over to the fresh machine, and taking the event draws no random byte. -/
theorem resetReconstructsTheMachine : Obligations.ResetReconstructsTheMachine := by
  intro s he
  rw [step_of_reset he, State.reconstruct, State.takeEvent_draws]

/-- Settles O47: LIFE alone decides whether the host's call is refused, and `stop` has its effect at the yield point. -/
theorem startAndStopSetTheRunningFlags : Obligations.StartAndStopSetTheRunningFlags := by
  refine fun s => ⟨step_of_start, step_of_start_outside_idle, fun _ => step_of_load_outside_idle, fun he hl hy => ?_,
    step_of_stop_after_stop⟩
  rw [step_of_stop he hl, State.atBoundary_of_atYield hy, State.stop]

/-- Settles O48: with both loops stopped no cycle or tick happens, and LIFE rules out the effect of every other event but reset. -/
theorem stoppedMachineIsFrozen : Obligations.StoppedMachineIsFrozen := by
  intro s t hl hcpu htmr hne h
  have hidle : s.life ≠ .idle := by simp [hl]
  rcases step_cases h with ⟨hcycle, -⟩ | htake | ⟨hreset, -⟩ | ⟨hload, -⟩ | ⟨hstart, -⟩ | ⟨hstop, -⟩ | ⟨htick, -⟩ | ⟨hdown, -⟩ |
    ⟨hup, -⟩
  · simp [State.cycleEnabled, hcpu] at hcycle
  · exact htake
  · exact absurd hreset hne
  · exact absurd hload hidle
  · exact absurd hstart hidle
  · exact absurd hl hstop
  · simp [htmr] at htick
  · exact absurd hl hdown
  · exact absurd hl hup

/-! ### The jump to itself (70_reset_and_hazards.md R196; decision D22) -/

/-- The end of a cycle that did not fault (30_encoding.md R70). -/
theorem endCycle_of_running {t : State} (hr : t.runCpu = true) : endCycle (.next t) = .next t.completeCycle := by
  simp [endCycle, hr]

/-- An address inside MEM fits the field NNN, so a jump can lead back to it. -/
theorem addrOperand_setWidth {w : Word} (h : w.toNat ≤ 0xFFF) : addrOperand (w.setWidth 12) = w := by
  apply BitVec.eq_of_toNat_eq
  rw [addrOperand_toNat, BitVec.toNat_setWidth]
  exact Nat.mod_eq_of_lt (Nat.lt_succ_of_le h)

/-- Jumping back to the fetched instruction undoes the advance of PC. -/
theorem State.fetched_setPc_pc (s : State) : s.fetched.setPc s.pc = s.clearDirty := rfl

theorem exec_jp (nnn : Addr12) (s : State) : exec (.jp nnn) s = .next (s.setPc (addrOperand nnn)) := rfl

theorem exec_jp_self {s : State} (h : s.pc.toNat ≤ 0xFFF) : exec (.jp (s.pc.setWidth 12)) s.fetched = .next s.clearDirty := by
  rw [exec_jp, addrOperand_setWidth h, s.fetched_setPc_pc]

/-- Settles O52: the jump undoes the advance of PC, so only the clearing of `dirty` and the count are left, and nothing is flushed. -/
theorem selfJumpChangesOnlyTheBatchCount : Obligations.SelfJumpChangesOnlyTheBatchCount := by
  rintro s ⟨hfetch, hjump, -, -⟩ hr
  have hpc : s.pc.toNat ≤ 0xFFE := s.canFetch_iff.mp hfetch
  calc cpuCycle s
    _ = endCycle (exec (.jp (s.pc.setWidth 12)) s.fetched) := cpuCycle_of_decode hpc hjump
    _ = endCycle (.next s.clearDirty) := by rw [exec_jp_self (Nat.le_succ_of_le hpc)]
    _ = .next s.clearDirty.completeCycle := endCycle_of_running hr
    _ = .next { s with bc := s.bc + 1, dirty := false } := rfl

end Sys2Proof.Machine
end
